-- ==== Sys2Proof/Word.lean ====
section
/-! DEFINITION. The word types of the Perah 9 module and the index types of its parts (00_scope.md "Names and
indices"; 04_core_model.md "Architectural state"). -/

namespace Sys2Proof

/-- A byte: every memory of the module is addressed in bytes, little-endian (00_scope.md "Bits and bytes"). -/
abbrev Byte := BitVec 8

/-- A scalar register, a control register or an event-record word: 64 bits (R4, R93). -/
abbrev W64 := BitVec 64

/-- A vector register: 1,024 bits (04_core_model.md "Architectural state"). -/
abbrev Vec := BitVec 1024

/-- A predicate register: 128 bits, bit i governing byte lane i (R68). -/
abbrev PredBits := BitVec 128

/-- A physical core, 0 to 271 (00_scope.md "Names and indices"). -/
abbrev PCore := Fin 272

/-- A logical core, 0 to 255. -/
abbrev LCore := Fin 256

/-- A tower, 0 to 3. -/
abbrev Tower := Fin 4

/-- A compute die of the module, 2 x tower + die. -/
abbrev Die := Fin 8

/-- A link, L00 to L47. -/
abbrev LinkIx := Fin 48

/-- A logical array m0 to m5, or a physical array. -/
abbrev ArrIx := Fin 6

/-- A collective engine, one per link die (R301). -/
abbrev EngIx := Fin 4

/-- A scalar register index s0 to s63. -/
abbrev SReg := Fin 64

/-- A vector register index v0 to v31. -/
abbrev VReg := Fin 32

/-- A predicate register index p0 to p15. -/
abbrev PReg := Fin 16

end Sys2Proof
end

