-- ==== Sys2Proof/Machine/Messages.lean ====
section
/-! DEFINITION. The messages that commands carry: notices (11 R250), link frames and HELLO messages (12 R280, R294), ledger
records (02 "The repair ledger"). -/

namespace Sys2Proof.Machine

/-- A notice (R250). -/
structure Notice where
  kind : Byte
  attempt : Byte
  seat : BitVec 16
  lcore : Byte
  trick : BitVec 24
  rubber : BitVec 40
  code : Byte
  bundle : BitVec 13
  seatLvl : Bool
  originTick : W64
  actTick : W64
  deriving DecidableEq, Repr

/-- A frame's content, without its link fields (R280). -/
structure Frame where
  type : Nat
  poison : Bool
  attempt : Nat
  dtag : Nat
  blk : Nat
  dest : Nat
  data : BitVec 2048
  deriving DecidableEq, Repr

/-- The link fields of an arriving frame (R280): SEQ, ACKSEQ, NAK, and whether its TYPE is reserved or a reserved bit of it
is nonzero (R281). -/
structure FrameHead where
  seq : BitVec 16
  ackseq : BitVec 16
  nak : Bool
  rsv : Bool
  deriving DecidableEq, Repr

/-- What the submission engine fetched for one descriptor (R320, R321): its 64 bytes; the bytes of the seat part or MGMT
request it names, or none where a read of host memory failed; the management processor's busy fraction in percent (R416). -/
structure Fetched where
  desc : BitVec 512
  payload : Option (List Byte)
  load : Byte
  deriving DecidableEq, Repr

/-- The link fields of an arriving Crix frame (R329): whether its CRC is good, whether its TYPE is reserved, ACKSEQ, NAK,
credits returned. -/
structure CrixHead where
  good : Bool
  rsv : Bool
  ackseq : BitVec 16
  nak : Bool
  cred0 : Byte
  cred1 : BitVec 16
  deriving DecidableEq, Repr

/-- A HELLO message (R294). -/
structure Hello where
  stepping : Nat
  tableId : Nat
  xdim : Nat
  ydim : Nat
  zdim : Nat
  dummies : Nat
  dummy : Bool
  link : Nat
  seat : Nat
  depth : Nat
  dealId : W64
  dealDigest : List Byte
  rubber : Nat
  certDigest : List Byte
  deriving DecidableEq, Repr

/-- A TAP instruction: BYPASS, IDCODE, EXTEST and the IEEE 1149.6 instructions, any other (R413, R414). -/
inductive TapOp where
  | bypass | idcode | boundary | other
  deriving DecidableEq, Repr

/-- The error codes with which the SPDM responder answers (R405, R410). -/
inductive SpdmError where
  | invalidRequest | busy | unspecified | unsupportedRequest
  deriving DecidableEq, Repr

/-- An answer of the SPDM responder, by what R410 and R411 give it; a signature is the last field of a signed one. -/
inductive SpdmAnswer where
  | version (versions : List (Nat × Nat))
  | capabilities (cert chal : Bool) (meas : Nat) (fresh : Bool) (ctExponent transferSize maxSize : Nat)
  | algorithms
  | digests (digest : List Byte)
  | certificate (chain : List Byte)
  | challengeAuth (chainHash summary context signature : List Byte)
  | measurements (blocks : List (Nat × List Byte)) (signature : List Byte)
  | error (code : SpdmError)
  deriving DecidableEq, Repr

/-- A record of the repair ledger (02 "The repair ledger"); types 0x02 to 0x09, and the characterised weights and leakage
entries of 15, whose type the spec does not name. Row 1024 + i of a `memRepair` is the i-th spare row of the bank, which has
failed (R385); a `memTest` tells the rows spared in each vault (R386). -/
inductive LedgerRec where
  | line (p : PCore) (group index : Nat)
  | spareBad (p : PCore) (group : Nat)
  | memRepair (p : PCore) (slice bank row : Nat)
  | rowSpare (p : PCore) (seg : Nat)
  | trim (t : Tower) (point code : Nat)
  | vmin (t : Tower) (clock mv : Nat)
  | retire (p : PCore) (reason : Nat)
  | wear (t : Tower) (count : Nat) (orderly : Bool)
  | memTest (full : Bool) (rows : List (PCore × Nat)) (quicks : Nat)
  | weight (i w : Nat)
  | leak (t : Tower) (j s : Nat)
  deriving DecidableEq, Repr

end Sys2Proof.Machine
end

