-- ==== Sys2Proof/Syntax.lean ====
section
/-! DEFINITION. The commands of the module: one constructor of `Instr` for each row of the opcode table, with the
operands the row's step needs. A core's instructions carry the fields of their slot format (05, 06 "Slot formats"). -/

namespace Sys2Proof.Machine

/-- Where an instruction of a hand stands: the physical core, and whether it is the first instruction of its bundle
(R70, R71). -/
structure At where
  core : PCore
  lead : Bool
  deriving DecidableEq, Repr

/-- How far a run of the in-bank units goes now (R203, R207, R234): its core, the blocks less one, and whether a slot splits the
run behind them. -/
structure BankRun where
  core : PCore
  n : BitVec 6
  cut : Bool
  deriving DecidableEq, Repr

/-- A hop of a vault's chain (R236): the core, and the chain position whose record leaves. -/
structure ChainHop where
  core : PCore
  pos : Fin 64
  deriving DecidableEq, Repr

/-- A NOTICE frame: its header and its notice (R250, R280). -/
structure NoticeFrame where
  head : FrameHead
  notice : Notice
  deriving DecidableEq, Repr

/-- A COLL frame and the seat that sends it (R304, log entry 74). -/
structure CollFrame where
  frame : Frame
  sender : BitVec 10
  deriving DecidableEq, Repr

/-- A TIME frame: its header and the tick count that it carries (R298). -/
structure TimeFrame where
  head : FrameHead
  tick : W64
  deriving DecidableEq, Repr

/-- What the boot ROM finds at power-on: the bits in which the SRAM reading differs from the enrolled one, by block (R404), and
whether the sealed private key passes its tag (R405). -/
structure PufReading where
  flips : List (BitVec 2048)
  gcm : Bool
  deriving DecidableEq, Repr

/-- What a memory test finds (R385): rows that fail, by core, slice, bank and row, and spare rows that fail. -/
structure MemFindings where
  rows : List (PCore × Fin 8 × Fin 16 × Fin 1024)
  spares : List (PCore × Fin 8 × Fin 16 × Fin 16)
  deriving DecidableEq, Repr

/-- A measurement of a tower's clock (R32, R33): the direction that each point wants, and whether a layer's error has reached
25 ps. -/
structure TrimReading where
  want : List Int
  lost : Bool
  deriving DecidableEq, Repr

/-- The fields of format V (slot 1), below OP. -/
structure VForm where
  pg : PReg
  vd : VReg
  va : VReg
  vb : VReg
  vc : VReg
  fmt : BitVec 4
  rm : BitVec 3
  w : BitVec 2
  sx : SReg
  bx : Bool
  imm : BitVec 11
  deriving DecidableEq, Repr

/-- The fields of format VX (slot 1), below OP. -/
structure VXForm where
  vd : VReg
  va : VReg
  fmts : BitVec 4
  fmtd : BitVec 4
  rm : BitVec 3
  sat : Bool
  b16 : Bool
  part : BitVec 3
  sx : SReg
  ss : SReg
  stream : BitVec 16
  deriving DecidableEq, Repr

/-- The fields of format M (slot 2), below OP. -/
structure MForm where
  pg : PReg
  ma : BitVec 3
  q : Fin 4
  buf : Bool
  t : Bool
  clr : Bool
  sc : Bool
  fmta : BitVec 4
  fmtb : BitVec 4
  sx : SReg
  sy : SReg
  n1 : BitVec 5
  imm : BitVec 18
  deriving DecidableEq, Repr

/-- The fields of format X (slot 3), below OP. -/
structure XForm where
  pg : PReg
  spc : Bool
  u : Bool
  tag : BitVec 2
  sx : SReg
  sy : SReg
  sz : SReg
  cnt : BitVec 14
  idx : BitVec 16
  deriving DecidableEq, Repr

end Sys2Proof.Machine

namespace Sys2Proof

open Machine

/-- The commands. -/
inductive Instr where
  -- control flow (slot 0)
  | br (k : At) (pg : PReg) (cond : Fin 8) (sa : SReg) (target : BitVec 13)
  | jal (k : At) (pg : PReg) (sd : SReg) (target : BitVec 13)
  | jr (k : At) (pg : PReg) (sa : SReg)
  | jalr (k : At) (pg : PReg) (sd sa : SReg)
  | loop (k : At) (pg : PReg) (sd : SReg) (target : BitVec 13)
  -- scalar arithmetic (slot 0)
  | add (k : At) (pg : PReg) (sd sa sb : SReg)
  | addi (k : At) (pg : PReg) (sd sa : SReg) (imm : BitVec 40)
  | sub (k : At) (pg : PReg) (sd sa sb : SReg)
  | mul (k : At) (pg : PReg) (sd sa sb : SReg)
  | muli (k : At) (pg : PReg) (sd sa : SReg) (imm : BitVec 40)
  | mulh (k : At) (pg : PReg) (sd sa sb : SReg)
  | mulhu (k : At) (pg : PReg) (sd sa sb : SReg)
  | div (k : At) (pg : PReg) (sd sa sb : SReg)
  | divu (k : At) (pg : PReg) (sd sa sb : SReg)
  | rem (k : At) (pg : PReg) (sd sa sb : SReg)
  | remu (k : At) (pg : PReg) (sd sa sb : SReg)
  | and (k : At) (pg : PReg) (sd sa sb : SReg)
  | andi (k : At) (pg : PReg) (sd sa : SReg) (imm : BitVec 40)
  | or (k : At) (pg : PReg) (sd sa sb : SReg)
  | ori (k : At) (pg : PReg) (sd sa : SReg) (imm : BitVec 40)
  | xor (k : At) (pg : PReg) (sd sa sb : SReg)
  | xori (k : At) (pg : PReg) (sd sa : SReg) (imm : BitVec 40)
  | shl (k : At) (pg : PReg) (sd sa sb : SReg)
  | shli (k : At) (pg : PReg) (sd sa : SReg) (imm : BitVec 40)
  | shr (k : At) (pg : PReg) (sd sa sb : SReg)
  | shri (k : At) (pg : PReg) (sd sa : SReg) (imm : BitVec 40)
  | sra (k : At) (pg : PReg) (sd sa sb : SReg)
  | srai (k : At) (pg : PReg) (sd sa : SReg) (imm : BitVec 40)
  | min (k : At) (pg : PReg) (sd sa sb : SReg)
  | max (k : At) (pg : PReg) (sd sa sb : SReg)
  | minu (k : At) (pg : PReg) (sd sa sb : SReg)
  | maxu (k : At) (pg : PReg) (sd sa sb : SReg)
  | sel (k : At) (pg : PReg) (sd sa sb sc : SReg)
  | li (k : At) (pg : PReg) (sd : SReg) (imm : BitVec 46)
  | lih (k : At) (pg : PReg) (sd : SReg) (imm : BitVec 46)
  | cmpEq (k : At) (pg : PReg) (sd sa sb : SReg)
  | cmpNe (k : At) (pg : PReg) (sd sa sb : SReg)
  | cmpLt (k : At) (pg : PReg) (sd sa sb : SReg)
  | cmpGe (k : At) (pg : PReg) (sd sa sb : SReg)
  | cmpLtu (k : At) (pg : PReg) (sd sa sb : SReg)
  | cmpGeu (k : At) (pg : PReg) (sd sa sb : SReg)
  -- predicates (slot 0)
  | pset (k : At) (pg pd : PReg) (sa : SReg)
  | pand (k : At) (pg pd pa pb : PReg)
  | por (k : At) (pg pd pa pb : PReg)
  | pxor (k : At) (pg pd pa pb : PReg)
  | pandn (k : At) (pg pd pa pb : PReg)
  | pnot (k : At) (pg pd pa : PReg)
  | pfirst (k : At) (pg pd : PReg) (sa : SReg)
  -- scalar scratch, local control, counters and synchronisation (slot 0)
  | lds (k : At) (pg : PReg) (sd sa : SReg) (imm : BitVec 40)
  | sts (k : At) (pg : PReg) (sd sa : SReg) (imm : BitVec 40)
  | crd (k : At) (pg : PReg) (sd : SReg) (imm : BitVec 40)
  | cwr (k : At) (pg : PReg) (sd : SReg) (imm : BitVec 40)
  | ctr (k : At) (pg : PReg) (sd : SReg) (imm : BitVec 40)
  | time (k : At) (ev dv : Bool) (e d : BitVec 24)
  | tbar (k : At) (t : BitVec 24)
  | rend (k : At)
  -- vector arithmetic (slot 1)
  | vaddF (k : At) (f : VForm)
  | vsubF (k : At) (f : VForm)
  | vmulF (k : At) (f : VForm)
  | vfmaF (k : At) (f : VForm)
  | vminF (k : At) (f : VForm)
  | vmaxF (k : At) (f : VForm)
  | vabsF (k : At) (f : VForm)
  | vnegF (k : At) (f : VForm)
  | vaddI (k : At) (f : VForm)
  | vsubI (k : At) (f : VForm)
  | vmulI (k : At) (f : VForm)
  | vminI (k : At) (f : VForm)
  | vmaxI (k : At) (f : VForm)
  | vand (k : At) (f : VForm)
  | vor (k : At) (f : VForm)
  | vxor (k : At) (f : VForm)
  | vshl (k : At) (f : VForm)
  | vshr (k : At) (f : VForm)
  | vsra (k : At) (f : VForm)
  -- compare, select and movement (slot 1)
  | vcmpEqF (k : At) (f : VForm)
  | vcmpNeF (k : At) (f : VForm)
  | vcmpLtF (k : At) (f : VForm)
  | vcmpLeF (k : At) (f : VForm)
  | vcmpEqI (k : At) (f : VForm)
  | vcmpNeI (k : At) (f : VForm)
  | vcmpLtI (k : At) (f : VForm)
  | vcmpLeI (k : At) (f : VForm)
  | vsel (k : At) (f : VForm)
  | vbcast (k : At) (f : VForm)
  | vperm (k : At) (f : VForm)
  | vext (k : At) (f : VForm)
  | vins (k : At) (f : VForm)
  -- conversion, activation, reductions, vector scratch access (slot 1)
  | vcvt (k : At) (f : VXForm)
  | vq (k : At) (f : VXForm)
  | vdq (k : At) (f : VXForm)
  | vtpack (k : At) (f : VXForm)
  | vtunpk (k : At) (f : VXForm)
  | vact (k : At) (f : VForm)
  | vredAddF (k : At) (f : VForm)
  | vredMaxF (k : At) (f : VForm)
  | vredMinF (k : At) (f : VForm)
  | vredAddI (k : At) (f : VForm)
  | vld (k : At) (f : VForm)
  | vst (k : At) (f : VForm)
  /-- The core fetches the bundle at its next index and finds it illegal (R72). -/
  | coreIllegal (c : PCore)
  -- array commands (slot 2) and the steps of the arrays; `a` is a logical array
  | mcfg (k : At) (f : MForm)
  | mlds (k : At) (f : MForm)
  | feed (k : At) (f : MForm)
  | mma (k : At) (f : MForm)
  | mdrn (k : At) (f : MForm)
  | mpre (k : At) (f : MForm)
  | mclr (k : At) (f : MForm)
  | loadPortRead (c : PCore) (a : ArrIx)
  | feedPortRead (c : PCore) (a : ArrIx)
  | mmaStep (c : PCore) (a : ArrIx) (q : Fin 4)
  | mdrnSnapshot (c : PCore) (a : ArrIx) (q : Fin 4)
  | drainWriteOut (c : PCore) (a : ArrIx)
  -- transfers, deliveries, memory-side commands and translation (slot 3)
  | vload (k : At) (f : XForm)
  | vstore (k : At) (f : XForm)
  | lsend (k : At) (f : XForm)
  | lrecv (k : At) (f : XForm)
  | cput (k : At) (f : XForm)
  | cget (k : At) (f : XForm)
  | ibopCopy (k : At) (f : XForm)
  | ibopFill (k : At) (f : XForm)
  | ibopAdd (k : At) (f : XForm)
  | ibopMul (k : At) (f : XForm)
  | ibopAxpy (k : At) (f : XForm)
  | ibopScal (k : At) (f : XForm)
  | ibopMax (k : At) (f : XForm)
  | ibopAct (k : At) (f : XForm)
  | kvatt (k : At) (f : XForm)
  | xqry (k : At) (f : XForm)
  | xchk (k : At) (f : XForm)
  -- schedule events and event records of a core
  | revokeDeadline (c : PCore)
  | eventRecordLeave (c : PCore)
  -- vault channel, slots, test mode and sequence tables
  | vaultReadBlock (c : PCore) (flips : List (Fin 608))
  | returnStatus (c : PCore) (status : BitVec 16) (n : Nat) (flips : List (Fin 608))
  | channelResend (c : PCore) (flips : List (Fin 608))
  | refreshSlot (c : PCore)
  | scrubSlot (c : PCore) (window : Bool)
  | hostWindow (c : PCore)
  | rawWrite (c : PCore) (enable : Bool) (word : BitVec 25)
  | rawRead (c : PCore) (enable : Bool) (word : BitVec 25)
  | seqEntryWrite (dir : Bool) (t : Tower) (i : BitVec 16) (v : W64)
  -- in-bank units and KV-attend
  | ibrun (r : Machine.BankRun)
  | ibReport (c : PCore) (parityOk : Bool)
  | ibReportTimeout (c : PCore) (slice : Fin 8)
  | ibTabWrite (c : PCore) (k : Fin 16) (w : Fin 256) (v : W64)
  | kvLayoutWrite (c : PCore) (tok : Bool) (v : W64)
  | kvset (c : PCore)
  | kvrun (r : Machine.BankRun)
  | chain (r : Machine.ChainHop)
  -- table commands: generation, identifier, arguments; then the ticks they name
  | load (gen : BitVec 4) (id : BitVec 16) (image : Option (List Byte))
  | start (gen : BitVec 4) (id : BitVec 16) (tick : W64)
  | stop (gen : BitVec 4) (id : BitVec 16)
  | replay (gen : BitVec 4) (id : BitVec 16) (tick : W64) (v : Byte)
  | variant (gen : BitVec 4) (id : BitVec 16) (rubber : W64) (v : Byte)
  | stepClock (gen : BitVec 4) (id : BitVec 16) (rubber : W64) (clock : Byte) (resume : W64)
  | unload (gen : BitVec 4) (id : BitVec 16)
  | stepDeferral (lock : W64)
  | noticeOriginate (c : PCore)
  | noticeReceive (l : LinkIx) (n : Machine.NoticeFrame)
  -- links: training, frames, discovery; the table's form
  | linkDetect (l : LinkIx)
  | linkEqualiseDone (l : LinkIx)
  | linkCheckDone (l : LinkIx) (good : BitVec 4)
  | linkAlign (l : LinkIx) (good : BitVec 4) (widthMax : BitVec 2)
  | linkRetryTimer (l : LinkIx)
  | lossOfSignal (l : LinkIx)
  | frameTime (l : LinkIx)
  | frameCrcFail (l : LinkIx)
  | idle (l : LinkIx) (h : Machine.FrameHead)
  | data (l : LinkIx) (h : Machine.FrameHead) (f : Machine.Frame)
  | coll (l : LinkIx) (h : Machine.FrameHead) (f : Machine.CollFrame)
  | disc (l : LinkIx) (h : Machine.FrameHead) (payload : BitVec 2048)
  | resendTimeout (l : LinkIx)
  | hello (l : LinkIx) (m : Machine.Hello)
  | cert (l : LinkIx) (verifies : Bool)
  | challenge (l : LinkIx) (nonce : BitVec 256)
  | response (l : LinkIx) (verifies : Bool)
  | confirm (l : LinkIx) (result : BitVec 4) (rubber : BitVec 40)
  | retrain (l : LinkIx)
  | linkDisable (l : LinkIx)
  | tblFormWrite (v : W64)
  | timeFrame (l : LinkIx) (f : Machine.TimeFrame) (phase : BitVec 16) (rtt : BitVec 16)
  | trainingStageTimeout (l : LinkIx)
  -- host ports
  | registerWrite (a : W64) (size : Nat) (v : W64)
  | vaultWindowRead (off : BitVec 38) (len : Nat)
  | vaultWindowWrite (off : BitVec 38) (bytes : List Byte) (poison : Bool)
  | subqWake (prod : BitVec 32) (items : List Machine.Fetched)
  | stage (gen : BitVec 4) (id : BitVec 16) (lcore : Byte) (addr : BitVec 32) (word : BitVec 256)
  | mgmt (gen : BitVec 4) (id : BitVec 16) (reply : W64) (request : Option (List Byte)) (load : Byte)
  | nop (gen : BitVec 4) (id : BitVec 16)
  | tlLink (good : BitVec 16)
  | init (b0 b1 : BitVec 32)
  | crixDataFrame (h : Machine.CrixHead) (ch : Fin 2) (sor : Bool) (seq : BitVec 16) (payload : BitVec 2048)
  | cxLink (up cxclk : Bool)
  | crixIdleFrame (h : Machine.CrixHead)
  -- power
  | pwrRailFault (lost : BitVec 5)
  | pwrPhaseFail (t : Tower) (k : Fin 22)
  | phaseFailClear (t : Tower) (mask : BitVec 22)
  | pwrDroop (d : Die)
  | pwrUndervolt (d : Die) (det : Fin 16)
  | anteWrite (t : Tower) (v : Byte)
  | corePwrOn (c : PCore)
  | corePwrRet (c : PCore)
  | corePwrOff (c : PCore)
  | powerTransitionDone (c : PCore)
  | droopMonitorQuiet (t : Tower)
  -- heat
  | sensorSample (samples : List (List (BitVec 16)))
  | forecastRun (fs : List (BitVec 16 × BitVec 16 × BitVec 6))
  | thmForecast (t : Tower)
  | coolantWrite (inlet outlet flow : BitVec 16)
  | thmStopClear (t : Tower)
  | keepWarmShort (t : Tower)
  | thermalTrip (t : Tower) (analog : Bool) (die : Byte) (temp : BitVec 16)
  -- bring-up, resets, sparing, power-down; the repair ledger's batches
  | powerOnReset (vaux : Bool) (puf : Machine.PufReading)
  | railGoodAsserted (rails : BitVec 5) (phases : List (BitVec 22))
  | firmwareVerify (a b : Bool × BitVec 16)
  | ledgerApply (factoryOk : Bool) (batchesOk : Nat)
  | connectionTest (lines : List (PCore × Fin 16 × Fin 20)) (spares : List (PCore × Fin 16)) (strobes : List (PCore × Fin 4 × Bool))
  | trimStage (codes : List (List Int)) (held : Bool)
  | selfTestWave (w : Fin 8) (failed : List PCore)
  | memoryTest (found : Machine.MemFindings) (dead : List PCore)
  | trimMeasure (t : Tower) (m : Machine.TrimReading)
  | towerComputeReset (t : Tower)
  | spareGo (p : BitVec 9) (reason : Byte) (copy : Bool)
  | coreRetired (readable : Bool)
  | towerClockLock (t : Tower)
  | ledgerBatchWrite (ok : Bool)
  -- identity, attestation, the management processor, debug, the event log
  | recoveryGo (image : Bool × BitVec 16)
  | fwStage (image : Option (Bool × BitVec 16))
  | getVersion (smbus busy : Bool)
  | getCapabilities (smbus busy : Bool)
  | negotiateAlgorithms (smbus busy offered : Bool)
  | getDigests (smbus busy : Bool)
  | getCertificate (smbus busy : Bool) (slot : BitVec 4)
  | spdmChallenge (smbus busy : Bool) (slot : BitVec 4) (summary : Fin 3) (context : BitVec 64)
  | getMeasurements (smbus busy : Bool) (index : Byte) (sign : Bool)
  | pldmSample (done : Bool)
  | tapInstruction (op : Machine.TapOp)
  | debugWrite (halt : Option PCore) (a : W64) (size : Nat) (v : W64)
  | eventLogConsWrite (v : BitVec 32)
  -- performance monitoring
  | pmuArm (action : BitVec 2)
  | sampleComplete (c : PCore) (latency : BitVec 24) (flags : BitVec 5)
  | sampleConsWrite (c : PCore) (v : BitVec 32)
  -- the commands without operands, of every family above (last, so that the others fit the runtime's constructor tags)
  | trickBoundary
  | rubberBoundary
  | startTick
  | replayTick
  | resumeTick
  | helloPeriod
  | timePeriod
  | hstCplqFull
  | crixResendTimeout
  | write
  | read
  | egress
  | governorWindow
  | shadowEstimate
  | coolantStale
  | coolantSecond
  | stageOneTimeout
  | bringupReady
  | moduleComputeReset
  | computeResetDone
  | powerDown
  | resetNLow
  | refclkLoss
  | fwActivate
  | fwCommit
  | telemetrySnapshot
  | mgtRestart
  | eventLogRecord
  | fwCommittable
  | pmuFreeze
  | pmuSnapshot
  | pmuUnfreeze
  deriving DecidableEq, Repr

end Sys2Proof
end

