-- ==== Sys2Proof/Decode.lean ====
section
/-! DEFINITION. The table's words. No row of the opcode table gives a bit: its fields are lists of mnemonics and rules. A
core's slot words (05, 06 "Slot formats"), the descriptors of the submission queue (R321) and the frames of the links have
their encodings in Machine/Encode.lean, HostPorts.lean and Link.lean, where the commands that carry them are meant. -/

namespace Sys2Proof

/-- The command that a table word spells: none, for no row has a word. -/
def decodeTableWord (_nbits _w : Nat) : Option Instr := none

end Sys2Proof
end

