-- ==== Sys2Proof/Machine/Bits.lean ====
section
/-! DEFINITION. Bit ranges [hi:lo] of words (00_scope.md "Bits and bytes"), signed readings, and the packing of
lanes and narrow elements (R45, R68). -/

namespace Sys2Proof.Machine

/-- The field [hi:lo] of a word, as a number. -/
def fld {n : Nat} (w : BitVec n) (hi lo : Nat) : Nat := (w.extractLsb' lo (hi + 1 - lo)).toNat

/-- The word whose bits [hi:lo] are 1 and whose other bits are 0. -/
def fldMask (n hi lo : Nat) : BitVec n := (BitVec.ofNat n (2 ^ (hi + 1 - lo) - 1)) <<< lo

/-- A word with the field [hi:lo] replaced by the low bits of a number. -/
def setFld {n : Nat} (w : BitVec n) (hi lo : Nat) (v : Nat) : BitVec n :=
  (w &&& ~~~ (fldMask n hi lo)) ||| (BitVec.ofNat n (v % 2 ^ (hi + 1 - lo)) <<< lo)

/-- One bit of a word. -/
def bit {n : Nat} (w : BitVec n) (i : Nat) : Bool := w.getLsbD i

/-- A number read as two's complement of a width. -/
def signed (w x : Nat) : Int := if x % 2 ^ w < 2 ^ (w - 1) then Int.ofNat (x % 2 ^ w) else Int.ofNat (x % 2 ^ w) - 2 ^ w

/-- An integer as the number its two's complement of a width spells. -/
def unsigned (w : Nat) (x : Int) : Nat := (x % (2 : Int) ^ w).toNat

/-- A Bool as 0 or 1. -/
def ofBool (b : Bool) : Nat := if b then 1 else 0

/-- Element k of width w of a packed word (R45, R68). -/
def lane {n : Nat} (v : BitVec n) (w k : Nat) : Nat := (v.extractLsb' (k * w) w).toNat

/-- A list of elements packed contiguously from bit 0 (R45). -/
def packNat (w : Nat) : List Nat → Nat
  | [] => 0
  | x :: xs => x % 2 ^ w + 2 ^ w * packNat w xs

/-- The elements 0 to n - 1 of a packed word. -/
def lanes {m : Nat} (v : BitVec m) (w n : Nat) : List Nat := (List.range n).map (lane v w)

/-- Saturating increment of a counter field of a width (R199). -/
def satAdd (w x k : Nat) : Nat := min (2 ^ w - 1) (x + k)

/-- The list with position i replaced. -/
def setAt {α : Type} (xs : List α) (i : Nat) (x : α) : List α := xs.set i x

/-- Division rounded up. -/
def ceilDiv (a b : Nat) : Nat := (a + b - 1) / b

/-- A number rounded up to a multiple. -/
def roundUp (a b : Nat) : Nat := ceilDiv a b * b

end Sys2Proof.Machine
end

