-- ==== Sys2Proof/Machine/Encode.lean ====
section
/-! DEFINITION. The 64-bit slot words of the instructions (05 and 06 "Slot formats"), and which words and bundles are
illegal (R72, R101, R102, R118 to R122, R126). -/

namespace Sys2Proof.Machine

/-! ### The slot formats -/

/-- Format SR. -/
def wordSR (op : Nat) (pg : PReg) (sd sa sb sc : Nat) : W64 :=
  BitVec.ofNat 64 (op * 2 ^ 56 + pg.val * 2 ^ 52 + sd * 2 ^ 46 + sa * 2 ^ 40 + sb * 2 ^ 34 + sc * 2 ^ 28)

/-- Format SI. -/
def wordSI (op : Nat) (pg : PReg) (sd sa : Nat) (imm : BitVec 40) : W64 :=
  BitVec.ofNat 64 (op * 2 ^ 56 + pg.val * 2 ^ 52 + sd * 2 ^ 46 + sa * 2 ^ 40 + imm.toNat)

/-- Format SL. -/
def wordSL (op : Nat) (pg : PReg) (sd : Nat) (imm : BitVec 46) : W64 :=
  BitVec.ofNat 64 (op * 2 ^ 56 + pg.val * 2 ^ 52 + sd * 2 ^ 46 + imm.toNat)

/-- Format SB. -/
def wordSB (op : Nat) (pg : PReg) (sd sa cond : Nat) (target : BitVec 13) : W64 :=
  BitVec.ofNat 64 (op * 2 ^ 56 + pg.val * 2 ^ 52 + sd * 2 ^ 46 + sa * 2 ^ 40 + cond * 2 ^ 37 + target.toNat)

/-- Format ST. -/
def wordST (op : Nat) (ev dv : Bool) (e d : BitVec 24) : W64 :=
  BitVec.ofNat 64 (op * 2 ^ 56 + ofBool ev * 2 ^ 51 + ofBool dv * 2 ^ 50 + e.toNat * 2 ^ 24 + d.toNat)

/-- Format V. -/
def VForm.word (op : Nat) (f : VForm) : W64 :=
  BitVec.ofNat 64 (op * 2 ^ 56 + f.pg.val * 2 ^ 52 + f.vd.val * 2 ^ 47 + f.va.val * 2 ^ 42 + f.vb.val * 2 ^ 37
    + f.vc.val * 2 ^ 32 + f.fmt.toNat * 2 ^ 28 + f.rm.toNat * 2 ^ 21 + f.w.toNat * 2 ^ 18 + f.sx.val * 2 ^ 12
    + ofBool f.bx * 2 ^ 11 + f.imm.toNat)

/-- Format VX. -/
def VXForm.word (op : Nat) (f : VXForm) : W64 :=
  BitVec.ofNat 64 (op * 2 ^ 56 + f.vd.val * 2 ^ 51 + f.va.val * 2 ^ 46 + f.fmts.toNat * 2 ^ 42 + f.fmtd.toNat * 2 ^ 38
    + f.rm.toNat * 2 ^ 35 + ofBool f.sat * 2 ^ 34 + ofBool f.b16 * 2 ^ 33 + f.part.toNat * 2 ^ 30 + f.sx.val * 2 ^ 24
    + f.ss.val * 2 ^ 18 + f.stream.toNat)

/-- Format M. -/
def MForm.word (op : Nat) (f : MForm) : W64 :=
  BitVec.ofNat 64 (op * 2 ^ 56 + f.pg.val * 2 ^ 52 + f.ma.toNat * 2 ^ 49 + f.q.val * 2 ^ 47 + ofBool f.buf * 2 ^ 46
    + ofBool f.t * 2 ^ 45 + ofBool f.clr * 2 ^ 44 + ofBool f.sc * 2 ^ 43 + f.fmta.toNat * 2 ^ 39 + f.fmtb.toNat * 2 ^ 35
    + f.sx.val * 2 ^ 29 + f.sy.val * 2 ^ 23 + f.n1.toNat * 2 ^ 18 + f.imm.toNat)

/-- Format X. -/
def XForm.word (op : Nat) (f : XForm) : W64 :=
  BitVec.ofNat 64 (op * 2 ^ 56 + f.pg.val * 2 ^ 52 + ofBool f.spc * 2 ^ 51 + ofBool f.u * 2 ^ 50 + f.tag.toNat * 2 ^ 48
    + f.sx.val * 2 ^ 42 + f.sy.val * 2 ^ 36 + f.sz.val * 2 ^ 30 + f.cnt.toNat * 2 ^ 16 + f.idx.toNat)

/-- The slot word of an instruction of the core, with its slot and where it issues; none for any other command. -/
def slotWord : Instr → Option (At × Nat × W64)
  | .br k pg cond sa target => some (k, 0, wordSB 0x60 pg 0 sa.val cond.val target)
  | .jal k pg sd target => some (k, 0, wordSB 0x62 pg sd.val 0 0 target)
  | .jr k pg sa => some (k, 0, wordSB 0x63 pg 0 sa.val 0 0)
  | .jalr k pg sd sa => some (k, 0, wordSB 0x64 pg sd.val sa.val 0 0)
  | .loop k pg sd target => some (k, 0, wordSB 0x65 pg sd.val 0 0 target)
  | .add k pg sd sa sb => some (k, 0, wordSR 0x01 pg sd.val sa.val sb.val 0)
  | .addi k pg sd sa imm => some (k, 0, wordSI 0x21 pg sd.val sa.val imm)
  | .sub k pg sd sa sb => some (k, 0, wordSR 0x02 pg sd.val sa.val sb.val 0)
  | .mul k pg sd sa sb => some (k, 0, wordSR 0x03 pg sd.val sa.val sb.val 0)
  | .muli k pg sd sa imm => some (k, 0, wordSI 0x23 pg sd.val sa.val imm)
  | .mulh k pg sd sa sb => some (k, 0, wordSR 0x04 pg sd.val sa.val sb.val 0)
  | .mulhu k pg sd sa sb => some (k, 0, wordSR 0x05 pg sd.val sa.val sb.val 0)
  | .div k pg sd sa sb => some (k, 0, wordSR 0x06 pg sd.val sa.val sb.val 0)
  | .divu k pg sd sa sb => some (k, 0, wordSR 0x07 pg sd.val sa.val sb.val 0)
  | .rem k pg sd sa sb => some (k, 0, wordSR 0x08 pg sd.val sa.val sb.val 0)
  | .remu k pg sd sa sb => some (k, 0, wordSR 0x09 pg sd.val sa.val sb.val 0)
  | .and k pg sd sa sb => some (k, 0, wordSR 0x0A pg sd.val sa.val sb.val 0)
  | .andi k pg sd sa imm => some (k, 0, wordSI 0x2A pg sd.val sa.val imm)
  | .or k pg sd sa sb => some (k, 0, wordSR 0x0B pg sd.val sa.val sb.val 0)
  | .ori k pg sd sa imm => some (k, 0, wordSI 0x2B pg sd.val sa.val imm)
  | .xor k pg sd sa sb => some (k, 0, wordSR 0x0C pg sd.val sa.val sb.val 0)
  | .xori k pg sd sa imm => some (k, 0, wordSI 0x2C pg sd.val sa.val imm)
  | .shl k pg sd sa sb => some (k, 0, wordSR 0x0D pg sd.val sa.val sb.val 0)
  | .shli k pg sd sa imm => some (k, 0, wordSI 0x2D pg sd.val sa.val imm)
  | .shr k pg sd sa sb => some (k, 0, wordSR 0x0E pg sd.val sa.val sb.val 0)
  | .shri k pg sd sa imm => some (k, 0, wordSI 0x2E pg sd.val sa.val imm)
  | .sra k pg sd sa sb => some (k, 0, wordSR 0x0F pg sd.val sa.val sb.val 0)
  | .srai k pg sd sa imm => some (k, 0, wordSI 0x2F pg sd.val sa.val imm)
  | .min k pg sd sa sb => some (k, 0, wordSR 0x10 pg sd.val sa.val sb.val 0)
  | .max k pg sd sa sb => some (k, 0, wordSR 0x11 pg sd.val sa.val sb.val 0)
  | .minu k pg sd sa sb => some (k, 0, wordSR 0x12 pg sd.val sa.val sb.val 0)
  | .maxu k pg sd sa sb => some (k, 0, wordSR 0x13 pg sd.val sa.val sb.val 0)
  | .sel k pg sd sa sb sc => some (k, 0, wordSR 0x14 pg sd.val sa.val sb.val sc.val)
  | .li k pg sd imm => some (k, 0, wordSL 0x30 pg sd.val imm)
  | .lih k pg sd imm => some (k, 0, wordSL 0x31 pg sd.val imm)
  | .cmpEq k pg sd sa sb => some (k, 0, wordSR 0x40 pg sd.val sa.val sb.val 0)
  | .cmpNe k pg sd sa sb => some (k, 0, wordSR 0x41 pg sd.val sa.val sb.val 0)
  | .cmpLt k pg sd sa sb => some (k, 0, wordSR 0x42 pg sd.val sa.val sb.val 0)
  | .cmpGe k pg sd sa sb => some (k, 0, wordSR 0x43 pg sd.val sa.val sb.val 0)
  | .cmpLtu k pg sd sa sb => some (k, 0, wordSR 0x44 pg sd.val sa.val sb.val 0)
  | .cmpGeu k pg sd sa sb => some (k, 0, wordSR 0x45 pg sd.val sa.val sb.val 0)
  | .pset k pg pd sa => some (k, 0, wordSR 0x48 pg pd.val sa.val 0 0)
  | .pand k pg pd pa pb => some (k, 0, wordSR 0x49 pg pd.val pa.val pb.val 0)
  | .por k pg pd pa pb => some (k, 0, wordSR 0x4A pg pd.val pa.val pb.val 0)
  | .pxor k pg pd pa pb => some (k, 0, wordSR 0x4B pg pd.val pa.val pb.val 0)
  | .pandn k pg pd pa pb => some (k, 0, wordSR 0x4C pg pd.val pa.val pb.val 0)
  | .pnot k pg pd pa => some (k, 0, wordSR 0x4D pg pd.val pa.val 0 0)
  | .pfirst k pg pd sa => some (k, 0, wordSR 0x4E pg pd.val sa.val 0 0)
  | .lds k pg sd sa imm => some (k, 0, wordSI 0x50 pg sd.val sa.val imm)
  | .sts k pg sd sa imm => some (k, 0, wordSI 0x51 pg sd.val sa.val imm)
  | .crd k pg sd imm => some (k, 0, wordSI 0x58 pg sd.val 0 imm)
  | .cwr k pg sd imm => some (k, 0, wordSI 0x59 pg sd.val 0 imm)
  | .ctr k pg sd imm => some (k, 0, wordSI 0x5C pg sd.val 0 imm)
  | .time k ev dv e d => some (k, 0, wordST 0x70 ev dv e d)
  | .tbar k t => some (k, 0, wordST 0x71 false false t 0)
  | .rend k => some (k, 0, wordST 0x72 false false 0 0)
  | .vaddF k f => some (k, 1, f.word 0x01)
  | .vsubF k f => some (k, 1, f.word 0x02)
  | .vmulF k f => some (k, 1, f.word 0x03)
  | .vfmaF k f => some (k, 1, f.word 0x04)
  | .vminF k f => some (k, 1, f.word 0x06)
  | .vmaxF k f => some (k, 1, f.word 0x07)
  | .vabsF k f => some (k, 1, f.word 0x08)
  | .vnegF k f => some (k, 1, f.word 0x09)
  | .vaddI k f => some (k, 1, f.word 0x11)
  | .vsubI k f => some (k, 1, f.word 0x12)
  | .vmulI k f => some (k, 1, f.word 0x13)
  | .vminI k f => some (k, 1, f.word 0x16)
  | .vmaxI k f => some (k, 1, f.word 0x17)
  | .vand k f => some (k, 1, f.word 0x18)
  | .vor k f => some (k, 1, f.word 0x19)
  | .vxor k f => some (k, 1, f.word 0x1A)
  | .vshl k f => some (k, 1, f.word 0x1B)
  | .vshr k f => some (k, 1, f.word 0x1C)
  | .vsra k f => some (k, 1, f.word 0x1D)
  | .vcmpEqF k f => some (k, 1, f.word 0x20)
  | .vcmpNeF k f => some (k, 1, f.word 0x21)
  | .vcmpLtF k f => some (k, 1, f.word 0x22)
  | .vcmpLeF k f => some (k, 1, f.word 0x23)
  | .vcmpEqI k f => some (k, 1, f.word 0x24)
  | .vcmpNeI k f => some (k, 1, f.word 0x25)
  | .vcmpLtI k f => some (k, 1, f.word 0x26)
  | .vcmpLeI k f => some (k, 1, f.word 0x27)
  | .vsel k f => some (k, 1, f.word 0x28)
  | .vbcast k f => some (k, 1, f.word 0x29)
  | .vperm k f => some (k, 1, f.word 0x2A)
  | .vext k f => some (k, 1, f.word 0x2B)
  | .vins k f => some (k, 1, f.word 0x2C)
  | .vcvt k f => some (k, 1, f.word 0x30)
  | .vq k f => some (k, 1, f.word 0x31)
  | .vdq k f => some (k, 1, f.word 0x32)
  | .vtpack k f => some (k, 1, f.word 0x33)
  | .vtunpk k f => some (k, 1, f.word 0x34)
  | .vact k f => some (k, 1, f.word 0x38)
  | .vredAddF k f => some (k, 1, f.word 0x3C)
  | .vredMaxF k f => some (k, 1, f.word 0x3D)
  | .vredMinF k f => some (k, 1, f.word 0x3E)
  | .vredAddI k f => some (k, 1, f.word 0x3F)
  | .vld k f => some (k, 1, f.word 0x40)
  | .vst k f => some (k, 1, f.word 0x41)
  | .mcfg k f => some (k, 2, f.word 0x01)
  | .mlds k f => some (k, 2, f.word 0x02)
  | .feed k f => some (k, 2, f.word 0x03)
  | .mma k f => some (k, 2, f.word 0x04)
  | .mdrn k f => some (k, 2, f.word 0x05)
  | .mpre k f => some (k, 2, f.word 0x06)
  | .mclr k f => some (k, 2, f.word 0x07)
  | .vload k f => some (k, 3, f.word 0x01)
  | .vstore k f => some (k, 3, f.word 0x02)
  | .lsend k f => some (k, 3, f.word 0x10)
  | .lrecv k f => some (k, 3, f.word 0x11)
  | .cput k f => some (k, 3, f.word 0x18)
  | .cget k f => some (k, 3, f.word 0x19)
  | .ibopCopy k f => some (k, 3, XForm.word 0x20 { f with idx := setFld f.idx 15 12 0 })
  | .ibopFill k f => some (k, 3, XForm.word 0x20 { f with idx := setFld f.idx 15 12 1 })
  | .ibopAdd k f => some (k, 3, XForm.word 0x20 { f with idx := setFld f.idx 15 12 2 })
  | .ibopMul k f => some (k, 3, XForm.word 0x20 { f with idx := setFld f.idx 15 12 3 })
  | .ibopAxpy k f => some (k, 3, XForm.word 0x20 { f with idx := setFld f.idx 15 12 4 })
  | .ibopScal k f => some (k, 3, XForm.word 0x20 { f with idx := setFld f.idx 15 12 5 })
  | .ibopMax k f => some (k, 3, XForm.word 0x20 { f with idx := setFld f.idx 15 12 6 })
  | .ibopAct k f => some (k, 3, XForm.word 0x20 { f with idx := setFld f.idx 15 12 7 })
  | .kvatt k f => some (k, 3, f.word 0x28)
  | .xqry k f => some (k, 3, f.word 0x30)
  | .xchk k f => some (k, 3, f.word 0x31)
  | _ => none

/-! ### Legality -/

/-- OP of a slot word. -/
def slotOp (w : W64) : Nat := fld w 63 56

/-- The operation codes listed for slot 0 (05). -/
def ops0 : List Nat :=
  [0x01, 0x02, 0x03, 0x04, 0x05, 0x06, 0x07, 0x08, 0x09, 0x0A, 0x0B, 0x0C, 0x0D, 0x0E, 0x0F, 0x10, 0x11, 0x12, 0x13,
   0x14, 0x21, 0x23, 0x2A, 0x2B, 0x2C, 0x2D, 0x2E, 0x2F, 0x30, 0x31] ++
  [0x40, 0x41, 0x42, 0x43, 0x44, 0x45, 0x48, 0x49, 0x4A, 0x4B, 0x4C, 0x4D, 0x4E, 0x50, 0x51, 0x58, 0x59, 0x5C, 0x60,
   0x62, 0x63, 0x64, 0x65, 0x70, 0x71, 0x72]

/-- The operation codes listed for slot 1 (05). -/
def ops1 : List Nat :=
  [0x01, 0x02, 0x03, 0x04, 0x06, 0x07, 0x08, 0x09, 0x11, 0x12, 0x13, 0x16, 0x17, 0x18, 0x19, 0x1A, 0x1B, 0x1C, 0x1D,
   0x20, 0x21, 0x22, 0x23, 0x24, 0x25, 0x26, 0x27] ++
  [0x28, 0x29, 0x2A, 0x2B, 0x2C, 0x30, 0x31, 0x32, 0x33, 0x34, 0x38, 0x3C, 0x3D, 0x3E, 0x3F, 0x40, 0x41]

/-- The operation codes listed for slot 2 (06). -/
def ops2 : List Nat := [0x01, 0x02, 0x03, 0x04, 0x05, 0x06, 0x07]

/-- The operation codes listed for slot 3 (06). -/
def ops3 : List Nat := [0x01, 0x02, 0x10, 0x11, 0x18, 0x19, 0x20, 0x28, 0x30, 0x31]

/-- The operation codes listed for a slot position. -/
def opsOf (k : Nat) : List Nat := if k = 0 then ops0 else if k = 1 then ops1 else if k = 2 then ops2 else ops3

/-- The bits that the instruction OP of slot 0 leaves zero (R101, R102). -/
def zero0 (op : Nat) : List (Nat × Nat) :=
  if op = 0x14 then [(27, 0)]
  else if op ≤ 0x13 ∨ (0x40 ≤ op ∧ op ≤ 0x45) then [(33, 0)]
  else if op = 0x30 then []
  else if op = 0x31 then [(45, 18)]
  else if op ≤ 0x2F then []
  else if op = 0x48 ∨ op = 0x4E then [(51, 50), (39, 0)]
  else if op = 0x4D then [(51, 50), (45, 44), (39, 0)]
  else if 0x49 ≤ op ∧ op ≤ 0x4C then [(51, 50), (45, 44), (39, 38), (33, 0)]
  else if op = 0x50 ∨ op = 0x51 then []
  else if op = 0x58 ∨ op = 0x59 then [(45, 40)]
  else if op = 0x5C then [(45, 40), (39, 2)]
  else if op = 0x60 then [(51, 46), (36, 13)]
  else if op = 0x62 ∨ op = 0x65 then [(45, 13)]
  else if op = 0x63 then [(51, 46), (39, 0)]
  else if op = 0x64 then [(39, 0)]
  else if op = 0x70 then [(55, 52), (49, 48)]
  else if op = 0x71 then [(55, 48), (23, 0)]
  else [(55, 0)]

/-- Operand B of a V-format instruction: with BX = 1 VB is zero, with BX = 0 SX is zero (R101). -/
def zeroB (w : W64) : List (Nat × Nat) := if bit w 11 then [(41, 37)] else [(17, 12)]

/-- The bits that the instruction OP of slot 1 leaves zero; `w` is the whole word. -/
def zero1 (op : Nat) (w : W64) : List (Nat × Nat) :=
  let v : List (Nat × Nat) := [(27, 24), (20, 20)]
  if op ≤ 0x03 then v ++ zeroB w ++ [(36, 32), (19, 18), (10, 0)]
  else if op = 0x04 then v ++ zeroB w ++ [(19, 18), (10, 0)]
  else if op ≤ 0x07 then v ++ zeroB w ++ [(36, 32), (23, 18), (10, 0)]
  else if op ≤ 0x09 then v ++ [(41, 32), (23, 0)]
  else if op ≤ 0x1D then v ++ zeroB w ++ [(36, 21), (10, 0)]
  else if op ≤ 0x23 then v ++ zeroB w ++ [(51, 51), (36, 32), (23, 18), (10, 0)]
  else if op ≤ 0x27 then v ++ zeroB w ++ [(51, 51), (36, 21), (10, 0)]
  else if op = 0x28 then v ++ zeroB w ++ [(36, 36), (23, 21), (10, 0)]
  else if op = 0x29 then v ++ [(46, 32), (23, 21), (11, 0)]
  else if op = 0x2A then v ++ [(36, 21), (17, 0)]
  else if op = 0x2B then v ++ [(51, 47), (41, 21), (11, 11), (10, 7)]
  else if op = 0x2C then v ++ [(41, 21), (11, 11), (10, 7)]
  else if op = 0x30 then
    [(33, 33), (23, 18), (17, 16)] ++ (if fld w 37 35 = 4 then [] else [(29, 24), (15, 0)])
  else if op = 0x31 then [(34, 34), (17, 16)] ++ (if fld w 37 35 = 4 then [] else [(29, 24), (15, 0)])
  else if op = 0x32 then [(17, 16)] ++ (if fld w 37 35 = 4 then [] else [(29, 24), (15, 0)])
  else if op ≤ 0x34 then [(45, 33), (29, 0)]
  else if op = 0x38 then v ++ [(41, 32), (23, 18), (11, 11)]
  else if op ≤ 0x3E then v ++ [(41, 32), (23, 0)]
  else if op = 0x3F then v ++ [(41, 21), (17, 0)]
  else if op = 0x40 then v ++ [(46, 21), (11, 11)]
  else v ++ [(51, 47), (41, 21), (11, 11)]

/-- The bits that the instruction OP of slot 2 leaves zero. -/
def zero2 (op : Nat) : List (Nat × Nat) :=
  if op = 0x01 then [(48, 35), (22, 0)]
  else if op = 0x02 then [(45, 44), (38, 35), (22, 18)]
  else if op = 0x03 then [(46, 44), (42, 39)]
  else if op = 0x04 then [(43, 43), (34, 23), (17, 0)]
  else if op = 0x05 then [(46, 45), (43, 35), (28, 18)]
  else if op = 0x06 then [(46, 35), (28, 18)]
  else [(46, 0)]

/-- The bits that the instruction OP of slot 3 leaves zero; `w` is the whole word. -/
def zero3 (op : Nat) (w : W64) : List (Nat × Nat) :=
  if op = 0x01 then [(50, 48), (35, 30), (15, 0)]
  else if op = 0x02 then (if fld w 49 48 = 2 then [] else [(35, 30)]) ++ [(15, 0)]
  else if op ≤ 0x19 then [(51, 48), (41, 30), (15, 12)]
  else if op = 0x20 then
    let o := fld w 15 12
    [(50, 48)] ++ (if o = 1 then [(41, 36)] else []) ++ (if o = 0 ∨ o = 7 then [(35, 30)] else [])
      ++ (if o = 7 then [(7, 4)] else [(7, 0)])
  else if op = 0x28 then [(51, 48), (41, 0)]
  else if op = 0x30 then [(51, 42), (29, 0)]
  else [(51, 42), (35, 30), (15, 0)]

/-- The bits that an instruction leaves zero. -/
def zeroBits (k op : Nat) (w : W64) : List (Nat × Nat) :=
  if k = 0 then zero0 op else if k = 1 then zero1 op w else if k = 2 then zero2 op else zero3 op w

/-- The format codes that an instruction names, each with the codes it accepts. -/
def formatsOf (k op : Nat) (w : W64) : List (Nat × List Nat) :=
  let small := [0, 1, 2]
  let scaled := [3, 4, 5, 6, 7, 8, 9, 10]
  let all := [0, 1, 2, 3, 4, 5, 6, 7, 8, 9, 10]
  if k = 1 then
    if op ≤ 0x09 ∨ (0x20 ≤ op ∧ op ≤ 0x23) ∨ op = 0x28 ∨ op = 0x29 ∨ op = 0x38 ∨ (0x3C ≤ op ∧ op ≤ 0x3E) then
      [(fld w 31 28, small)]
    else if op = 0x30 then [(fld w 45 42, all.dropLast), (fld w 41 38, all.dropLast)]
    else if op = 0x31 then [(fld w 45 42, small), (fld w 41 38, scaled)]
    else if op = 0x32 then [(fld w 45 42, scaled), (fld w 41 38, small)]
    else []
  else if k = 2 then
    if op = 0x02 then [(fld w 42 39, all)]
    else if op = 0x03 then [(fld w 38 35, all)]
    else if op = 0x04 then [(fld w 42 39, all), (fld w 38 35, all)]
    else []
  else if k = 3 ∧ op = 0x20 then [(fld w 11 8, small)]
  else []

/-- Element widths by format code (R40, R119 step 1). -/
def widthOfCode (c : Nat) : Nat := [32, 16, 16, 8, 8, 6, 6, 4, 8, 4, 8].getD c 8

/-- Elements that a conversion converts (R119 step 2). -/
def convCount (ws wd : Nat) : Nat := if max ws wd = 6 then 160 else 1024 / max ws wd

/-- A part that does not exist in the register (R119 steps 3 to 6). -/
def badPart (w : W64) : Bool :=
  let ws := widthOfCode (fld w 45 42)
  let wd := widthOfCode (fld w 41 38)
  let p := convCount ws wd * min ws wd
  let k := fld w 32 30
  (ws == wd && k != 0) || decide ((k + 1) * p > 1024)

/-- What else makes an instruction's encoding illegal (R102, R105, R118, R119, R121, R126). -/
def badExtra (k op : Nat) (w : W64) : Bool :=
  if k = 0 then
    op == 0x60 && (fld w 39 37 == 7 || (fld w 39 37 == 0 && fld w 45 40 != 0))
  else if k = 1 then
    let lw := fld w 19 18
    if (0x11 ≤ op ∧ op ≤ 0x1D) ∨ (0x24 ≤ op ∧ op ≤ 0x27) ∨ op = 0x2A ∨ op = 0x3F ∨ op = 0x40 ∨ op = 0x41 then lw == 3
    else if op = 0x28 ∨ op = 0x29 then lw == 3 || (fld w 31 28 != 0 && lw != 0)
    else if op = 0x2B ∨ op = 0x2C then lw == 3 || decide (fld w 6 0 ≥ 128 / 2 ^ lw)
    else if 0x30 ≤ op ∧ op ≤ 0x32 then badPart w
    else if op = 0x33 then fld w 46 46 == 1 || decide (fld w 32 30 > 3)
    else if op = 0x34 then fld w 51 51 == 1 || decide (fld w 32 30 > 3)
    else false
  else if k = 2 then decide (fld w 51 49 ≥ 6)
  else
    (op != 0x28 && op != 0x30 && fld w 29 16 == 0) || (op == 0x02 && fld w 49 48 == 3)
      || (op == 0x20 && (decide (fld w 15 12 ≥ 8) || (fld w 15 12 == 4 && fld w 30 30 == 1)))

/-- The reason for which a slot word alone makes its bundle illegal: 1, 3 or 4 (R72); the lowest where several
apply. -/
def slotReason (k : Nat) (w : W64) : Option Nat :=
  let op := slotOp w
  if w = 0 then none
  else if op = 0 then some 4
  else if (opsOf k).contains op then
    let fs := formatsOf k op w
    if fs.any (fun p => decide (p.1 ≥ 11)) then some 3
    else if fs.any (fun p => !p.2.contains p.1) || (zeroBits k op w).any (fun r => fld w r.1 r.2 != 0) || badExtra k op w
    then some 4 else none
  else if (ops0 ++ ops1 ++ ops2 ++ ops3).contains op then some 1
  else some 4

/-- What a slot of a bundle writes (R72 reason 2). -/
inductive Target where
  | sreg (i : Nat) | vreg (i : Nat) | preg (i : Nat) | array (a : Nat)
  deriving DecidableEq, Repr

/-- The registers, predicates and arrays that an instruction writes; s0 and p0 are excepted (R72). -/
def slotTargets (k : Nat) (w : W64) : List Target :=
  let op := slotOp w
  let l : List Target :=
    if w = 0 ∨ !(opsOf k).contains op then []
    else if k = 0 then
      if op = 0x51 ∨ op = 0x59 ∨ op = 0x60 ∨ op = 0x63 ∨ op ≥ 0x70 then []
      else if 0x48 ≤ op ∧ op ≤ 0x4E then [.preg (fld w 49 46)]
      else [.sreg (fld w 51 46)]
    else if k = 1 then
      if op = 0x41 then []
      else if 0x20 ≤ op ∧ op ≤ 0x27 then [.preg (fld w 50 47)]
      else if op = 0x2B then [.sreg (fld w 17 12)]
      else if op = 0x31 then [.vreg (fld w 55 51), .sreg (fld w 23 18)]
      else if op = 0x34 then [.vreg (fld w 55 51), .vreg (fld w 55 51 + 1)]
      else if 0x30 ≤ op ∧ op ≤ 0x33 then [.vreg (fld w 55 51)]
      else [.vreg (fld w 51 47)]
    else if k = 2 then [.array (fld w 51 49)]
    else if op = 0x30 then [.sreg (fld w 35 30)]
    else []
  l.filter fun t => t != .sreg 0 && t != .preg 0

/-- The reason and slot for which a bundle of four slot words is illegal (R72): the lowest reason, and the lowest slot to
which it applies. -/
def bundleReason (ws : List W64) : Option (Nat × Nat) :=
  let singles := (List.range 4).filterMap fun k => (slotReason k (ws.getD k 0)).map fun r => (r, k)
  let targets := (List.range 4).map fun k => slotTargets k (ws.getD k 0)
  let clash := (List.range 4).filter fun k =>
    (targets.getD k []).any fun t => (List.range 4).any fun j => j != k && (targets.getD j []).contains t
  let all := singles ++ clash.map fun k => (2, k)
  [1, 2, 3, 4].findSome? fun r =>
    ((List.range 4).find? fun k => all.contains (r, k)).map fun k => (r, k)

end Sys2Proof.Machine
end

