-- ==== Sys2Proof/Machine/Ecc.lean ====
section
/-! DEFINITION. The stored word of a vault and its Reed-Solomon code (08_vaults.md R170 to R173), and the transfer
checks of the vertical channel (R175, R176). -/

namespace Sys2Proof.Machine

/-- Multiplication by alpha = 0x02 in GF(2^8) on x^8 + x^4 + x^3 + x^2 + 1 (R172). -/
def gfDouble (x : Byte) : Byte := if x.msb then (x <<< 1) ^^^ 0x1D else x <<< 1

/-- n steps of shift-and-add multiplication, most significant bit of `y` first. -/
def gfMulSteps (x y : Byte) : Nat → Byte
  | 0 => 0
  | n + 1 => gfDouble (gfMulSteps (x) (y >>> 1) n) ^^^ (if y.getLsbD 0 then x else 0)

/-- Multiplication in GF(2^8) (R172). -/
def gfMul (x y : Byte) : Byte := gfMulSteps x y 8

/-- alpha^p. -/
def gfAlpha : Nat → Byte
  | 0 => 1
  | p + 1 => gfDouble (gfAlpha p)

/-- A stored word: 256 data bits, three check bytes and the metadata byte (R171). -/
structure Stored where
  data : BitVec 256
  check : BitVec 24
  md : Byte
  deriving DecidableEq, Repr

/-- The poison bit, bit [280] of the stored word (R171). -/
def Stored.poison (w : Stored) : Bool := w.md.getLsbD 0

/-- The in-bank-written mark, bit [281]. -/
def Stored.ibw (w : Stored) : Bool := w.md.getLsbD 1

/-- The generation tag, bits [285:282]. -/
def Stored.gen (w : Stored) : Nat := fld w.md 5 2

/-- The metadata byte of a generation tag, the in-bank-written mark and the poison bit; RSV is written 0 (R171). -/
def metaByte (gen : Nat) (ibw poison : Bool) : Byte :=
  BitVec.ofNat 8 (gen % 16 * 4 + ofBool ibw * 2 + ofBool poison)

/-- The code symbol at a position p from 0 to 35: check bytes, then data bytes, then metadata (R172). -/
def Stored.symbol (w : Stored) (p : Nat) : Byte :=
  if p < 3 then w.check.extractLsb' (8 * p) 8
  else if p < 35 then w.data.extractLsb' (8 * (p - 3)) 8
  else w.md

/-- A stored word with a value added to the symbol at a position. -/
def Stored.addAt (w : Stored) (p : Nat) (x : Byte) : Stored :=
  if p < 3 then { w with check := w.check ^^^ (x.setWidth 24 <<< (8 * p)) }
  else if p < 35 then { w with data := w.data ^^^ (x.setWidth 256 <<< (8 * (p - 3))) }
  else { w with md := w.md ^^^ x }

/-- One step of division by g(x) = x^3 + 7x^2 + 14x + 8 = (x + 1)(x + alpha)(x + alpha^2), high coefficient first. -/
def rsStep (r : Byte × Byte × Byte) (u : Byte) : Byte × Byte × Byte :=
  let f := u ^^^ r.2.2
  (gfMul f 8, r.1 ^^^ gfMul f 14, r.2.1 ^^^ gfMul f 7)

/-- The message symbols u_32 down to u_0 (R172). -/
def rsMessage (data : BitVec 256) (m : Byte) : List Byte :=
  m :: ((List.range 32).reverse.map fun i => data.extractLsb' (8 * i) 8)

/-- The check bytes of R172. -/
def rsCheck (data : BitVec 256) (m : Byte) : BitVec 24 :=
  let r := (rsMessage data m).foldl rsStep (0, 0, 0)
  r.1.setWidth 24 ||| (r.2.1.setWidth 24 <<< 8) ||| (r.2.2.setWidth 24 <<< 16)

/-- The stored word that encodes data and metadata (R172). -/
def encodeWord (data : BitVec 256) (m : Byte) : Stored := { data, check := rsCheck data m, md := m }

/-- The syndrome S_j = c(alpha^j) (R173). -/
def syndrome (w : Stored) (j : Nat) : Byte :=
  ((List.range 36).reverse.map w.symbol).foldl (fun acc c => gfMul acc (gfAlpha j) ^^^ c) 0

/-- What the decoder finds (R173): no error, one symbol corrected at a position, or uncorrectable. -/
inductive Decoded where
  | clean
  | corrected (p : Nat)
  | uncorrectable
  deriving DecidableEq, Repr

/-- The decoder of R173: its finding and the word as corrected (as read where it is uncorrectable). -/
def decodeWord (w : Stored) : Decoded × Stored :=
  let s0 := syndrome w 0
  let s1 := syndrome w 1
  let s2 := syndrome w 2
  if s0 = 0 ∧ s1 = 0 ∧ s2 = 0 then (.clean, w)
  else if s0 ≠ 0 ∧ gfMul s1 s1 = gfMul s0 s2 then
    match (List.range 36).find? (fun p => gfMul s0 (gfAlpha p) == s1) with
    | some p => (.corrected p, w.addAt p s0)
    | none => (.uncorrectable, w)
  else (.uncorrectable, w)

/-- The name s of the symbol at a code position (R173). -/
def symbolName (p : Nat) : Nat := if p < 3 then 33 + p else if p < 35 then p - 3 else 32

/-- The stored word as its 288 bits (R171). -/
def Stored.bits (w : Stored) : BitVec 288 :=
  w.data.setWidth 288 ||| (w.check.setWidth 288 <<< 256) ||| (w.md.setWidth 288 <<< 280)

/-- The stored word of 288 raw bits (R171, R193). -/
def Stored.ofBits (b : BitVec 288) : Stored :=
  { data := b.extractLsb' 0 256, check := b.extractLsb' 256 24, md := b.extractLsb' 280 8 }

/-- One bit of a CRC with its generator polynomial, high-order first. -/
def crcBit {n : Nat} (poly : BitVec n) (r : BitVec n) (b : Bool) : BitVec n :=
  if r.msb != b then (r <<< 1) ^^^ poly else r <<< 1

/-- The CRC-8 of bits [63:8] of a channel command: polynomial 0x07, initial value 0 (R175). The spec names no bit
order for it; the word is taken from its most significant bit (log entry 6). -/
def crc8 (cmd : W64) : Byte :=
  ((List.range 56).reverse.map fun i => cmd.getLsbD (8 + i)).foldl (crcBit (0x07 : Byte)) 0

/-- The CRC-32 of a bit string: polynomial 0x04C11DB7, initial value all ones, the result complemented (R176). -/
def crc32 (bits : List Bool) : BitVec 32 :=
  ~~~ (bits.foldl (crcBit (0x04C11DB7 : BitVec 32)) 0xFFFFFFFF)

/-- The 576 bits of a block: the first word's bits 0 to 287, then the second word's (R176). -/
def blockBits (a b : Stored) : List Bool :=
  ((List.range 288).map fun i => a.bits.getLsbD i) ++ ((List.range 288).map fun i => b.bits.getLsbD i)

/-- The fields of a vault byte address (R170). -/
structure VaultPlace where
  row : Nat
  cb : Nat
  bank : Nat
  slice : Nat
  word : Nat
  deriving DecidableEq, Repr

/-- The place a word index names (R170). -/
def VaultPlace.ofWord (w : Nat) : VaultPlace :=
  { row := w / 2 ^ 15 % 1024, cb := w / 2 ^ 10 % 32, bank := w / 2 ^ 6 % 16, slice := w / 8 % 8, word := w % 8 }

/-- The word index of a place (R170). -/
def VaultPlace.toWord (p : VaultPlace) : Nat :=
  p.row * 2 ^ 15 + p.cb * 2 ^ 10 + p.bank * 2 ^ 6 + p.slice * 8 + p.word

/-- The segment number of a word: A[29:18] x 128 + A[14:8] (R187). -/
def segmentOf (w : Nat) : Nat := w / 2 ^ 13 % 4096 * 128 + w / 8 % 128

/-- The 64 word indices of a segment, burst by burst (R169, R187). -/
def segmentWords (seg : Nat) : List Nat :=
  (List.range 64).map fun i => seg / 128 * 2 ^ 13 + i / 8 * 2 ^ 10 + seg % 128 * 8 + i % 8

end Sys2Proof.Machine
end

