-- ==== Sys2Proof/Machine/Num.lean ====
section
/-! DEFINITION. The twelve element formats, their exact values, the rounding of an exact value into a format
(03_numeric_formats.md R40 to R52), and IEEE 754 arithmetic done exactly and rounded once. -/

namespace Sys2Proof.Machine

/-- The element formats of R40, in the order of their codes 0x0 to 0xA. -/
inductive Fmt where
  | f32 | f16 | bf16 | e4m3 | e5m2 | e3m2 | e2m3 | e2m1 | i8 | i4 | tern
  deriving DecidableEq, Repr

/-- The format a 4-bit code names; 0xB to 0xF are reserved (R40). -/
def Fmt.ofCode : Nat → Option Fmt
  | 0 => some .f32 | 1 => some .f16 | 2 => some .bf16 | 3 => some .e4m3 | 4 => some .e5m2 | 5 => some .e3m2
  | 6 => some .e2m3 | 7 => some .e2m1 | 8 => some .i8 | 9 => some .i4 | 10 => some .tern
  | _ => none

/-- The 4-bit code of a format (R40). -/
def Fmt.code : Fmt → Nat
  | .f32 => 0 | .f16 => 1 | .bf16 => 2 | .e4m3 => 3 | .e5m2 => 4 | .e3m2 => 5
  | .e2m3 => 6 | .e2m1 => 7 | .i8 => 8 | .i4 => 9 | .tern => 10

/-- Exponent bits of a float format (R41); 0 for the others. -/
def Fmt.expBits : Fmt → Nat
  | .f32 => 8 | .f16 => 5 | .bf16 => 8 | .e4m3 => 4 | .e5m2 => 5 | .e3m2 => 3 | .e2m3 => 2 | .e2m1 => 2
  | _ => 0

/-- Trailing significand bits of a float format (R41). -/
def Fmt.sigBits : Fmt → Nat
  | .f32 => 23 | .f16 => 10 | .bf16 => 7 | .e4m3 => 3 | .e5m2 => 2 | .e3m2 => 2 | .e2m3 => 3 | .e2m1 => 1
  | _ => 0

/-- Exponent bias of a float format (R41). -/
def Fmt.bias : Fmt → Nat
  | .f32 => 127 | .f16 => 15 | .bf16 => 127 | .e4m3 => 7 | .e5m2 => 15 | .e3m2 => 3 | .e2m3 => 1 | .e2m1 => 1
  | _ => 0

/-- Floating-point formats (R40, column Kind). -/
def Fmt.isFloat : Fmt → Bool
  | .i8 | .i4 | .tern => false
  | _ => true

/-- Width in bits of one element; a ternary element is handled as an INT8 lane (R119 step 1). -/
def Fmt.width : Fmt → Nat
  | .f32 => 32 | .f16 => 16 | .bf16 => 16 | .e4m3 => 8 | .e5m2 => 8 | .e3m2 => 6 | .e2m3 => 6 | .e2m1 => 4
  | .i8 => 8 | .i4 => 4 | .tern => 8

/-- Formats that encode infinities (R41). -/
def Fmt.hasInf : Fmt → Bool
  | .f32 | .f16 | .bf16 | .e5m2 => true
  | _ => false

/-- Formats that encode a NaN (R41, R43). -/
def Fmt.hasNan : Fmt → Bool
  | .f32 | .f16 | .bf16 | .e5m2 | .e4m3 => true
  | _ => false

/-- Formats of 4 bits, or ternary: the operands that D2 = 1 accepts (MCFG configuration word, R139 reason 4). -/
def Fmt.isNarrow4 : Fmt → Bool
  | .e2m1 | .i4 | .tern => true
  | _ => false

/-- Formats that take block scales (R40 column Block scale, R54). -/
def Fmt.isScaled : Fmt → Bool
  | .f32 | .f16 | .bf16 => false
  | _ => true

/-- Largest finite magnitude of a float format as significand and exponent of two (R41). -/
def Fmt.maxFinite : Fmt → Nat × Int
  | .f32 => (2 ^ 24 - 1, 104) | .f16 => (2047, 5) | .bf16 => (255, 120) | .e4m3 => (14, 5) | .e5m2 => (7, 13)
  | .e3m2 => (7, 2) | .e2m3 => (15, -1) | .e2m1 => (3, 1)
  | .i8 => (127, 0) | .i4 => (7, 0) | .tern => (1, 0)

/-- The canonical NaN of a format (R43); formats without a NaN give 0 (R51). -/
def Fmt.nanCode : Fmt → Nat
  | .f32 => 0x7FC00000 | .f16 => 0x7E00 | .bf16 => 0x7FC0 | .e4m3 => 0x7F | .e5m2 => 0x7E
  | _ => 0

/-- The exponent emax of a block-scaled format (R48). -/
def Fmt.emax : Fmt → Int
  | .e4m3 => 8 | .e5m2 => 15 | .e3m2 => 4 | .e2m3 => 2 | .e2m1 => 2 | .i8 => 6 | .i4 => 2 | .tern => 0
  | _ => 0

/-- An exact value: a NaN, an infinity, or (-1)^neg * mant * 2^exp; a zero keeps its sign. -/
inductive Num where
  | nan
  | inf (neg : Bool)
  | fin (neg : Bool) (mant : Nat) (exp : Int)
  deriving DecidableEq, Repr

/-- The value an encoding of a float format stands for (R41, R42). -/
def Num.ofFloat (f : Fmt) (x : Nat) : Num :=
  let p := f.sigBits
  let eb := f.expBits
  let neg := (x / 2 ^ (p + eb)) % 2 == 1
  let e := (x / 2 ^ p) % 2 ^ eb
  let m := x % 2 ^ p
  if e == 2 ^ eb - 1 && f.hasInf then (if m == 0 then .inf neg else .nan)
  else if f == .e4m3 && e == 15 && m == 7 then .nan
  else if e == 0 then .fin neg m (1 - (f.bias : Int) - p)
  else .fin neg (2 ^ p + m) ((e : Int) - f.bias - p)

/-- The value of an integer. -/
def Num.ofInt (i : Int) : Num := .fin (decide (i < 0)) i.natAbs 0

/-- The value of an element of any format (R41, R44); a ternary lane holds an INT8 value (R119, R120). -/
def Num.decode (f : Fmt) (x : Nat) : Num :=
  match f with
  | .i8 | .tern => Num.ofInt (signed 8 x)
  | .i4 => Num.ofInt (signed 4 x)
  | _ => Num.ofFloat f x

/-- The value of an E8M0 scale code; 0xFF is NaN (R46). -/
def Num.ofScale (c : Nat) : Num := if c == 255 then .nan else .fin false 1 ((c : Int) - 127)

/-- The value is a NaN. -/
def Num.isNan : Num → Bool
  | .nan => true
  | _ => false

/-- The value is a zero of either sign. -/
def Num.isZero : Num → Bool
  | .fin _ 0 _ => true
  | _ => false

/-- The value is finite. -/
def Num.isFin : Num → Bool
  | .fin _ _ _ => true
  | _ => false

/-- The sign of a value. -/
def Num.neg : Num → Bool
  | .nan => false
  | .inf s => s
  | .fin s _ _ => s

/-- The value with its sign turned. -/
def Num.negate : Num → Num
  | .nan => .nan
  | .inf s => .inf (!s)
  | .fin s m e => .fin (!s) m e

/-- The magnitude of a value. -/
def Num.abs : Num → Num
  | .nan => .nan
  | .inf _ => .inf false
  | .fin _ m e => .fin false m e

/-- The exact product; infinity times zero is a NaN. -/
def Num.mul : Num → Num → Num
  | .nan, _ => .nan
  | _, .nan => .nan
  | .inf a, .inf b => .inf (a != b)
  | .inf a, .fin b m _ => if m = 0 then .nan else .inf (a != b)
  | .fin a m _, .inf b => if m = 0 then .nan else .inf (a != b)
  | .fin a m e, .fin b n g => .fin (a != b) (m * n) (e + g)

/-- The signed integer of a finite value at an exponent not above its own. -/
def Num.scaled (s : Bool) (m : Nat) (e lo : Int) : Int :=
  let k : Int := Int.ofNat (m * 2 ^ (e - lo).toNat)
  if s then -k else k

/-- The exact sum; opposite infinities give a NaN, and an exact zero of unlike signs is +0 except toward minus
infinity (IEEE 754). `down` says that the rounding mode is toward minus infinity. -/
def Num.add (down : Bool) : Num → Num → Num
  | .nan, _ => .nan
  | _, .nan => .nan
  | .inf a, .inf b => if a == b then .inf a else .nan
  | .inf a, .fin _ _ _ => .inf a
  | .fin _ _ _, .inf b => .inf b
  | .fin a m e, .fin b n g =>
    let lo := min e g
    let t := Num.scaled a m e lo + Num.scaled b n g lo
    if t = 0 then .fin (if m = 0 ∧ n = 0 ∧ a = b then a else down) 0 0
    else .fin (decide (t < 0)) t.natAbs lo

/-- Order of two values that are not NaN: a < b, with -0 equal to +0. -/
def Num.lt : Num → Num → Bool
  | .nan, _ => false
  | _, .nan => false
  | .inf a, .inf b => a && !b
  | .inf a, .fin _ _ _ => a
  | .fin _ _ _, .inf b => !b
  | .fin a m e, .fin b n g =>
    let lo := min e g
    decide (Num.scaled a m e lo < Num.scaled b n g lo)

/-- Equality of two values, with -0 equal to +0; a NaN equals nothing. -/
def Num.eq (x y : Num) : Bool := !x.isNan && !y.isNan && !x.lt y && !y.lt x

/-- The rounding modes of R49. -/
inductive Rm where
  | rne | rtz | rdn | rup
  | sr          -- stochastic, R52
  | reserved    -- codes 0b101 to 0b111
  deriving DecidableEq, Repr

/-- The mode a 3-bit field selects (R49). -/
def Rm.ofCode : Nat → Rm
  | 0 => .rne | 1 => .rtz | 2 => .rdn | 3 => .rup | 4 => .sr | _ => .reserved

/-- The position of the leading bit of n/d, that is floor(log2(n/d)), for n and d not zero. -/
def ratLog2 (n d : Nat) : Int :=
  let l : Int := (Nat.log2 n : Int) - (Nat.log2 d : Int)
  let ge : Bool := if l ≥ 0 then decide (d * 2 ^ l.toNat ≤ n) else decide (d ≤ n * 2 ^ (-l).toNat)
  if ge then l else l - 1

/-- Whether the quotient q with remainder r over d is rounded away from zero (R49, R52); `rand` is the element's
16-bit random value, used by stochastic rounding alone. -/
def roundsUp (rm : Rm) (rand : Nat) (neg : Bool) (q r d : Nat) : Bool :=
  match rm with
  | .rne | .reserved => decide (2 * r > d) || (decide (2 * r = d) && q % 2 == 1)
  | .rtz => false
  | .rdn => neg && r != 0
  | .rup => !neg && r != 0
  | .sr => decide (rand < 65536 * r / d)

/-- n/d in units of 2^e, rounded to a whole number; the second part says whether anything was lost. -/
def roundUnits (rm : Rm) (rand : Nat) (neg : Bool) (n d : Nat) (e : Int) : Nat × Bool :=
  let N := if e ≥ 0 then n else n * 2 ^ (-e).toNat
  let D := if e ≥ 0 then d * 2 ^ e.toNat else d
  let q := N / D
  let r := N % D
  (if roundsUp rm rand neg q r D then q + 1 else q, r != 0)

/-- The outcome of a conversion: the encoding and the flags it sets (R50, R51). -/
structure Conv where
  code : Nat
  ovf : Bool := false
  inexact : Bool := false
  invalid : Bool := false
  deriving DecidableEq, Repr

/-- The encoding of a finite magnitude k * 2^e of a float format, where e is the exponent of its last place. -/
def encodeFin (f : Fmt) (neg : Bool) (k : Nat) (e : Int) : Nat :=
  let p := f.sigBits
  let sgn := if neg then 2 ^ (p + f.expBits) else 0
  if k < 2 ^ p then sgn + k
  else
    let k' := if k ≥ 2 ^ (p + 1) then k / 2 else k
    let e' := if k ≥ 2 ^ (p + 1) then e + 1 else e
    sgn + (e' + f.bias + p).toNat * 2 ^ p + (k' - 2 ^ p)

/-- The encoding of an infinity of a format that has one. -/
def encodeInf (f : Fmt) (neg : Bool) : Nat :=
  (if neg then 2 ^ (f.sigBits + f.expBits) else 0) + (2 ^ f.expBits - 1) * 2 ^ f.sigBits

/-- What a float conversion beyond the largest finite magnitude gives (R50). -/
def overflowCode (f : Fmt) (sat neg : Bool) : Nat :=
  let big := encodeFin f neg f.maxFinite.1 f.maxFinite.2
  if sat then big
  else if f.hasInf then encodeInf f neg
  else if f == .e4m3 then f.nanCode
  else big

/-- Conversion of the exact value n/d (d not zero) with a sign into a float format (R49 to R51). -/
def convRatFloat (f : Fmt) (rm : Rm) (rand : Nat) (sat neg : Bool) (n d : Nat) : Conv :=
  if n = 0 then { code := encodeFin f neg 0 0 }
  else
    let emin : Int := 1 - f.bias
    let e := max (ratLog2 n d) emin - f.sigBits
    let (k, lost) := roundUnits rm rand neg n d e
    let (mk, me) := f.maxFinite
    let lo := min e me
    if k * 2 ^ (e - lo).toNat > mk * 2 ^ (me - lo).toNat then
      { code := overflowCode f sat neg, ovf := true, inexact := true }
    else { code := encodeFin f neg k e, inexact := lost }

/-- The range of an integer or ternary format (R44). -/
def Fmt.intRange : Fmt → Int × Int
  | .i4 => (-8, 7)
  | .tern => (-1, 1)
  | _ => (-128, 127)

/-- An integer as an element of an integer format; ternary elements are INT8 lanes (R119). -/
def encodeInt (f : Fmt) (i : Int) : Nat := unsigned f.width i

/-- Conversion of the exact value n/d with a sign into an integer or ternary format (R49 to R51). -/
def convRatInt (f : Fmt) (rm : Rm) (rand : Nat) (neg : Bool) (n d : Nat) : Conv :=
  let (k, lost) := roundUnits rm rand neg n d 0
  let i : Int := if neg then -(k : Int) else k
  let (lo, hi) := f.intRange
  if i < lo then { code := encodeInt f lo, ovf := true, inexact := true }
  else if i > hi then { code := encodeInt f hi, ovf := true, inexact := true }
  else { code := encodeInt f i, inexact := lost }

/-- Conversion of the exact value n/d with a sign into any format. -/
def convRat (f : Fmt) (rm : Rm) (rand : Nat) (sat neg : Bool) (n d : Nat) : Conv :=
  if f.isFloat then convRatFloat f rm rand sat neg n d else convRatInt f rm rand neg n d

/-- Conversion of an infinity (R50). -/
def convInf (f : Fmt) (sat neg : Bool) : Conv :=
  if f.isFloat then
    if f.hasInf && !sat then { code := encodeInf f neg }
    else { code := overflowCode f sat neg, ovf := true, inexact := true }
  else
    { code := encodeInt f (if neg then f.intRange.1 else f.intRange.2), ovf := true, inexact := true }

/-- The numerator and denominator of m * 2^e. -/
def ratOf (m : Nat) (e : Int) : Nat × Nat :=
  if e ≥ 0 then (m * 2 ^ e.toNat, 1) else (m, 2 ^ (-e).toNat)

/-- Conversion of a value into a format (R49 to R52). A reserved rounding code rounds as RNE and sets CONV_INVALID
(R49). -/
def Num.conv (f : Fmt) (rm : Rm) (rand : Nat) (sat : Bool) (x : Num) : Conv :=
  let c : Conv :=
    match x with
    | .nan => { code := f.nanCode, invalid := !f.hasNan }
    | .inf s => convInf f sat s
    | .fin s m e => let (n, d) := ratOf m e; convRat f rm rand sat s n d
  if rm = .reserved then { c with invalid := true } else c

/-- IEEE rounding of an exact value into a float format: an overflow gives an infinity (R117). -/
def Num.round (f : Fmt) (rm : Rm) (x : Num) : Nat := (x.conv f rm 0 false).code

/-- Rounding to FP32 with RNE, `rne32` of the spec's illustrations (R123, R226). -/
def rne32 (x : Num) : Nat := x.round .f32 .rne

/-- The value of an FP32 encoding. -/
def num32 (x : Nat) : Num := Num.ofFloat .f32 x

/-- FP32 addition with one RNE rounding. -/
def add32 (x y : Nat) : Nat := rne32 ((num32 x).add false (num32 y))

/-- FP32 multiplication with one RNE rounding. -/
def mul32 (x y : Nat) : Nat := rne32 ((num32 x).mul (num32 y))

/-- FP32 x * y + z with one RNE rounding. -/
def fma32 (x y z : Nat) : Nat := rne32 (((num32 x).mul (num32 y)).add false (num32 z))

/-- FP32 subtraction with one RNE rounding. -/
def sub32 (x y : Nat) : Nat := rne32 ((num32 x).add false (num32 y).negate)

/-- FP32 division with one RNE rounding; used with a divisor that is not zero (R229). -/
def div32 (x y : Nat) : Nat :=
  match num32 x, num32 y with
  | .nan, _ => Fmt.f32.nanCode
  | _, .nan => Fmt.f32.nanCode
  | .inf _, .inf _ => Fmt.f32.nanCode
  | .inf a, .fin b _ _ => encodeInf .f32 (a != b)
  | .fin a _ _, .inf b => encodeFin .f32 (a != b) 0 0
  | .fin a m e, .fin b n g =>
    if n = 0 then (if m = 0 then Fmt.f32.nanCode else encodeInf .f32 (a != b))
    else
      let (p, q) := ratOf m (e - g)
      (convRatFloat .f32 .rne 0 false (a != b) p (q * n)).code

/-- Minimum or maximum of two encodings of one float format: the canonical NaN if either is a NaN, and -0 below +0
(R117). -/
def minMaxF (f : Fmt) (isMax : Bool) (x y : Nat) : Nat :=
  let a := Num.ofFloat f x
  let b := Num.ofFloat f y
  if a.isNan || b.isNan then f.nanCode
  else
    let aLess := a.lt b || (!b.lt a && a.neg && !b.neg)
    if aLess == isMax then y else x

/-- floor of a finite value, as an integer. -/
def Num.floor : Num → Int
  | .fin s m e =>
    let (n, d) := ratOf m e
    if s then -(Int.ofNat ((n + d - 1 : Nat) / d)) else Int.ofNat (n / d)
  | _ => 0

/-- The nearest integer to a finite value, ties to even. -/
def Num.nearest : Num → Int
  | .fin s m e =>
    let (n, d) := ratOf m e
    let (k, _) := roundUnits .rne 0 s n d (0 : Int)
    if s then -(k : Int) else k
  | _ => 0

/-- A binary64 value (R310). -/
def num64 (x : Nat) : Num :=
  let neg := (x / 2 ^ 63) % 2 == 1
  let e : Nat := (x / 2 ^ 52) % 2048
  let m : Nat := x % 2 ^ 52
  if e == 2047 then (if m == 0 then .inf neg else .nan)
  else if e == 0 then .fin neg m (-1074)
  else .fin neg (2 ^ 52 + m) ((e : Int) - 1075)

/-- Rounding to binary64 with RNE (R310). -/
def rne64 (x : Num) : Nat :=
  match x with
  | .nan => 0x7FF8000000000000
  | .inf s => (if s then 2 ^ 63 else 0) + 0x7FF0000000000000
  | .fin s m e =>
    let sgn := if s then 2 ^ 63 else 0
    if m = 0 then sgn
    else
      let (n, d) := ratOf m e
      let q := max (ratLog2 n d) (-1022) - 52
      let (k, _) := roundUnits .rne 0 s n d q
      if k < 2 ^ 52 then sgn + k
      else
        let k' := if k ≥ 2 ^ 53 then k / 2 else k
        let q' := if k ≥ 2 ^ 53 then q + 1 else q
        if q' + 1075 ≥ 2047 then sgn + 0x7FF0000000000000
        else sgn + (q' + 1075).toNat * 2 ^ 52 + (k' - 2 ^ 52)

/-- Binary64 addition with RNE. -/
def add64 (x y : Nat) : Nat := rne64 ((num64 x).add false (num64 y))

end Sys2Proof.Machine
end

