-- ==== Sys2Proof/Machine/Tab.lean ====
section
/-! DEFINITION. Sparse tables in one canonical form (keys strictly rising, no entry equal to what an unlisted key
reads as), and byte memory as such a table. Every large store of the module (vault, scratch, hand store, page table,
control registers) is one of these. -/

namespace Sys2Proof.Machine

/-- A sparse table: pairs of a key and a value. What an unlisted key reads as is given at each use. -/
abbrev Tab (α : Type) := List (Nat × α)

/-- The value at a key; `d` is what an unlisted key reads as. -/
def Tab.get {α : Type} (d : α) : Tab α → Nat → α
  | [], _ => d
  | (k, v) :: t, i => if i = k then v else Tab.get d t i

/-- The table without any entry at a key. -/
def Tab.drop {α : Type} (t : Tab α) (i : Nat) : Tab α := t.filter (fun p => p.1 != i)

/-- The table with a pair put before the first larger key. -/
def Tab.place {α : Type} : Tab α → Nat → α → Tab α
  | [], i, x => [(i, x)]
  | (k, v) :: t, i, x => if i < k then (i, x) :: (k, v) :: t else (k, v) :: Tab.place t i x

/-- The table with the value `x` at key `i`, in canonical form. -/
def Tab.put {α : Type} [DecidableEq α] (d : α) (t : Tab α) (i : Nat) (x : α) : Tab α :=
  if x = d then t.drop i else (t.drop i).place i x

/-- Keys strictly rising from a lower bound, and no entry equal to what its key reads as when unlisted. -/
def Tab.wfFrom {α : Type} [DecidableEq α] (d : Nat → α) : Nat → Tab α → Bool
  | _, [] => true
  | lo, (k, v) :: t => decide (lo ≤ k) && (decide (v ≠ d k) && Tab.wfFrom d (k + 1) t)

/-- The canonical form of a table whose unlisted keys read as given by `d`. -/
def Tab.wfBy {α : Type} [DecidableEq α] (d : Nat → α) (t : Tab α) : Bool := Tab.wfFrom d 0 t

/-- The canonical form: keys strictly rising and no entry equal to the default. -/
def Tab.wf {α : Type} [DecidableEq α] (d : α) (t : Tab α) : Bool := Tab.wfBy (fun _ => d) t

/-- Byte memory: the listed cells; a byte that nothing has written reads as zero (log entry 3). -/
abbrev Memory := List Host.Cell

/-- One byte of memory. -/
def Memory.byte (m : Memory) (a : Nat) : Byte := Tab.get 0 m a

/-- `n` consecutive bytes from an address, lowest address first. -/
def Memory.bytes (m : Memory) (a : Nat) : Nat → List Byte
  | 0 => []
  | n + 1 => m.byte a :: Memory.bytes m (a + 1) n

/-- The cells that a list of bytes stored at an address lists: those that are not zero. -/
def Memory.cells (a : Nat) : List Byte → Memory
  | [] => []
  | b :: bs => if b = 0 then Memory.cells (a + 1) bs else (a, b) :: Memory.cells (a + 1) bs

/-- Memory with consecutive bytes stored at an address. -/
def Memory.store (m : Memory) (a : Nat) (bs : List Byte) : Memory :=
  m.filter (fun c => decide (c.1 < a)) ++ (Memory.cells a bs ++ m.filter (fun c => decide (a + bs.length ≤ c.1)))

/-- The canonical form of a memory. -/
def Memory.wf (m : Memory) : Bool := Tab.wf 0 m

/-- The number a list of bytes spells, little-endian (00_scope.md "Bits and bytes"). -/
def leNat : List Byte → Nat
  | [] => 0
  | b :: bs => b.toNat + 256 * leNat bs

/-- A number as `n` bytes, little-endian. -/
def leBytes : Nat → Nat → List Byte
  | 0, _ => []
  | n + 1, x => BitVec.ofNat 8 x :: leBytes n (x / 256)

/-- The number that `n` bytes from an address spell. -/
def Memory.num (m : Memory) (a n : Nat) : Nat := leNat (m.bytes a n)

/-- Memory with a number stored as `n` bytes. -/
def Memory.storeNum (m : Memory) (a n x : Nat) : Memory := m.store a (leBytes n x)

end Sys2Proof.Machine
end

