-- ==== Sys2Proof/Machine/CoreState.lean ====
section
/-! DEFINITION. The state of one physical core (04_core_model.md, 06, 07): registers with their poison, scratch, hand
store, arrays, queues and event buffer. Control registers are not here: they are in `State.regs`. -/

namespace Sys2Proof.Machine

/-- The scalar, vector and predicate registers with their poison tags (R67, R86): bit i of `sPoison` is the tag of si,
bit g of entry i of `vPoison` the tag of lane group g of vi. -/
structure RegFile where
  s : Vector W64 64
  sPoison : BitVec 64
  v : Vector Vec 32
  vPoison : Vector (BitVec 32) 32
  p : Vector PredBits 16
  pPoison : BitVec 16
  deriving DecidableEq, Repr

/-- Every register zero, no tag set. The spec gives these registers no reset value (log entry 2). -/
def RegFile.zero : RegFile :=
  { s := Vector.replicate 64 0, sPoison := 0, v := Vector.replicate 32 0, vPoison := Vector.replicate 32 0,
    p := Vector.replicate 16 0, pPoison := 0 }

/-- The snapshot of a rubber start: scalars, predicates and their tags (R90). -/
structure Snapshot where
  s : Vector W64 64
  sPoison : BitVec 64
  p : Vector PredBits 16
  pPoison : BitVec 16
  deriving DecidableEq, Repr

/-- An event record (R93, R300), by its fields. -/
structure Record where
  tag : W64
  tcycle : BitVec 24
  lcore : Byte
  pcore : BitVec 9
  req : BitVec 2
  slot : BitVec 2
  code : Byte
  arg : W64
  lost : BitVec 16
  bundle : BitVec 13
  deriving DecidableEq, Repr

/-- The four 64-bit words of a record (R93). -/
def Record.words (r : Record) : List W64 :=
  [r.tag,
   BitVec.ofNat 64 (r.tcycle.toNat * 2 ^ 40 + r.lcore.toNat * 2 ^ 32 + r.pcore.toNat * 2 ^ 16 + r.req.toNat * 2 ^ 11
     + r.slot.toNat * 2 ^ 8 + r.code.toNat),
   r.arg,
   BitVec.ofNat 64 (r.lost.toNat * 2 ^ 32 + r.bundle.toNat)]

/-- Why the bundle of a core does not issue (R84, with the release waits divided by R315 and R422). -/
inductive Idle where
  | bubble | transfer | barrier | collective | receive | schedule | rubberEnd | array | register | xferQueue
  deriving DecidableEq, Repr

/-- A bundle that is ready and has not issued (R85, R113 to R116). -/
structure Waiting where
  bundle : BitVec 13
  earliest : Option (BitVec 24)
  deadline : Option (BitVec 24)
  /-- the trick in which it became ready -/
  trick : BitVec 24
  /-- TBAR: the trick it waits for -/
  tbar : Option (BitVec 24)
  /-- it carries REND -/
  rend : Bool
  /-- its revoke has been detected -/
  revoked : Bool
  cause : Idle
  deriving DecidableEq, Repr

/-- An array cell (R56 to R58, R63, R86): the exact grid sum, or the FP32 accumulator's encoding in float mode. -/
structure Cell where
  sum : Int
  terms : Nat
  /-- a term of magnitude 2^63 or more has been added -/
  big : Bool
  invalid : Bool
  poison : Bool
  deriving DecidableEq, Repr

/-- A cleared cell. -/
def Cell.zero : Cell := { sum := 0, terms := 0, big := false, invalid := false, poison := false }

/-- An operand element as loaded: its encoding (a ternary element as an INT8 lane), its E8M0 scale code and its poison
tag (R131, R132). Scale code 127 is the scale 1. -/
structure Elem where
  code : Nat
  scale : Nat
  poison : Bool
  deriving DecidableEq, Repr

/-- A stationary tile or one streaming entry: its format and its elements in the order of R131. -/
structure Operand where
  fmt : Fmt
  elems : List Elem
  deriving DecidableEq, Repr

/-- The seven array commands. -/
inductive ArrOp where
  | mcfg | mlds | feed | mma | mdrn | mpre | mclr
  deriving DecidableEq, Repr

/-- A command in an array's queue (R134). -/
structure ArrCmd where
  op : ArrOp
  f : MForm
  /-- MCFG: the configuration word s[SX]; otherwise the scratch address s[SX] + IMM x 32 -/
  x : W64
  /-- MCFG: the edge-mask word; MLDS, FEED: the scale address s[SY] -/
  y : W64
  /-- the guard or an operand is poisoned: the command is not performed but poisons its destinations (R127, R139) -/
  poisoned : Bool
  /-- the scratch destination may be poisoned: its address is neither poisoned nor out of range -/
  addrOk : Bool
  /-- the configuration word in force in issue order -/
  cfg : W64
  /-- words and scale words read so far by the port, with their poison tags -/
  words : List (BitVec 256 × Bool)
  scales : List (BitVec 256 × Bool)
  /-- steps done by an MMA; entries already filled by a FEED -/
  step : Nat
  bundle : BitVec 13
  /-- MDRN: how many MDRN the core had issued before it in the rubber (log entry 23) -/
  ord : Nat
  deriving DecidableEq, Repr

/-- A snapshot in the drain buffer, waiting to be written out (R137, R164): bytes, poison of each 32-byte word, the
numeric flags it sets, the events it raises. -/
structure Drain where
  addr : Nat
  data : List Byte
  poison : List Bool
  flags : W64
  bundle : BitVec 13
  deriving DecidableEq, Repr

/-- A physical array (R129, R157). -/
structure Arr where
  cfg : W64
  mask : W64
  cells : Tab Cell
  /-- buffer b of quadrant q is entry 2q + b; whole mode uses quadrant 0 -/
  bufs : Vector (Option Operand) 8
  feeders : Vector (List Operand) 4
  queue : List ArrCmd
  drain : Option Drain
  /-- class of the previous cycle, of each quadrant (R162) -/
  cls : Vector (Fin 8) 4
  /-- cycles of each quadrant that are classed and counted already and have yet to pass (R160, R162) -/
  spent : Vector Nat 4
  deriving DecidableEq, Repr

/-- An array after reset (R129): configuration and masks zero, cells zero, buffers and feeders empty. -/
def Arr.reset : Arr :=
  { cfg := 0, mask := 0, cells := [], bufs := Vector.replicate 8 none, feeders := Vector.replicate 4 [], queue := [],
    drain := none, cls := Vector.replicate 4 7, spent := Vector.replicate 4 0 }

/-- What a transfer-queue entry does (R141). Vault places are word indices, one for each word moved. -/
inductive XferOp where
  | load (dst : Nat) (words : List Nat)
  | store (src : Nat) (words : List Nat) (gen : Nat) (fill poisonAll : Bool)
  /-- 8-byte units: each its vault byte address -/
  | store8 (src : Nat) (units : List Nat) (gen : Nat) (fill poisonAll : Bool)
  /-- an in-bank operation: operation, format, table, destination and operand word indices, the scalar, and whether its ranges
  lie in sequence space -/
  | ibop (op : Nat) (fmt : Fmt) (tab : Nat) (dst a b : List Nat) (scalar : W64) (seq : Bool)
  /-- KV-attend: the 64 descriptor bytes -/
  | kvatt (desc : List Byte)
  /-- a VLOAD, LRECV, CGET or KVATT under a poisoned guard: the range's scratch words are poisoned (R127) -/
  | taint (ranges : List (Nat × Nat))
  deriving DecidableEq, Repr

/-- An entry of the transfer queue. -/
structure Xfer where
  op : XferOp
  /-- words, chunks or blocks already done -/
  done : Nat
  bundle : BitVec 13
  /-- attempts of the current burst or command that have failed (R177, R178) -/
  fails : Nat
  /-- blocks done of the present run, and whether its command still holds for those that are left (R203, R207) -/
  part : Nat := 0
  going : Bool := false
  deriving DecidableEq, Repr

/-- A slot-3 instruction beside the vault transfers that still holds its transfer-queue entry (R141, R447): whether it is
on the block read port, the block write port or neither, and the cycles for which it still holds the entry. -/
structure PortHold where
  port : Option Bool
  left : Nat
  deriving DecidableEq, Repr

/-- A tagged instruction in flight (R428 to R430). -/
structure Sample where
  tag : W64
  tcycle : BitVec 24
  slot : BitVec 2
  op : Byte
  space : BitVec 2
  bundle : BitVec 13
  addr : W64
  attempt : Byte
  xq : Nat
  flags : BitVec 5
  deriving DecidableEq, Repr

end Sys2Proof.Machine
end

