-- ==== Sys2Proof/Machine/VaultCmd.lean ====
section
/-! DEFINITION. The 64-bit commands of the channel's command bus: those of the vault (08 R175), of the in-bank units (09
"Commands on the channel") and of KV-attend (10 R233, R234, R236), each with its CRC-8. Places are word indices A[29:5] of
the vault (R170). -/

namespace Sys2Proof.Machine

/-! ### Address decode (R170) -/

/-- The row of a word. -/
def rowOf (w : Nat) : Nat := w / 2 ^ 15 % 1024

/-- The burst within the row. -/
def cbOf (w : Nat) : Nat := w / 2 ^ 10 % 32

/-- The bank. -/
def bankOf (w : Nat) : Nat := w / 2 ^ 6 % 16

/-- The slice. -/
def sliceOf (w : Nat) : Nat := w / 2 ^ 3 % 8

/-! ### Commands -/

/-- A command of bits [63:8] with its CRC-8 (R175). -/
def sealCommand (w : Nat) : W64 :=
  let c : W64 := BitVec.ofNat 64 (w / 256 * 256)
  c ||| (crc8 c).setWidth 64

/-- KIND of a command. -/
def kindOf (c : W64) : Nat := fld c 63 59

/-- The fields of R175 of the burst that holds a word. -/
def placeFields (kind w : Nat) (act ap : Bool) : Nat :=
  kind * 2 ^ 59 + sliceOf w * 2 ^ 56 + bankOf w * 2 ^ 52 + rowOf w * 2 ^ 42 + cbOf w * 2 ^ 37 + ofBool act * 2 ^ 36 +
    ofBool ap * 2 ^ 35

/-- The mask of the words of a burst. -/
def wordMask (ws : List Nat) : Nat := ((List.range 8).map fun i => if ws.any (fun w => w % 8 == i) then 2 ^ i else 0).sum

/-- A read (1), a write (2) or a spare-segment write (5) of words of one burst (R175): the mask is all ones for a read. -/
def burstCommand (kind : Nat) (act ap : Bool) (ws : List Nat) : W64 :=
  sealCommand (placeFields kind (ws.headD 0) act ap + (if kind = 1 then 255 else wordMask ws) * 2 ^ 27)

/-- Precharge all. -/
def prechargeAll : W64 := sealCommand (3 * 2 ^ 59)

/-- FMT of IBSET. -/
def ibFmt (f : Fmt) : Nat := match f with | .f16 => 1 | .bf16 => 2 | _ => 0

/-- CB of a word less CB of another, modulo 32. -/
def cbDiff (w v : Nat) : Nat := (cbOf w + 32 - cbOf v) % 32

/-- IBSET to every slice: operation, format, table, the CB offsets of operand b and of the destination from operand a, which
range the destination equals (0 none, 1 a, 2 b), and whether b is read. -/
def ibsetCommand (op : Nat) (f : Fmt) (tab db dd dst : Nat) (hasB : Bool) : W64 :=
  sealCommand (0x08 * 2 ^ 59 + 2 ^ 55 + op * 2 ^ 51 + ibFmt f * 2 ^ 49 + tab * 2 ^ 45 + db * 2 ^ 40 + dd * 2 ^ 35 +
    dst * 2 ^ 33 + ofBool hasB * 2 ^ 32)

/-- IBSCAL to every slice. -/
def ibscalCommand (v : Nat) : W64 := sealCommand (0x09 * 2 ^ 59 + 2 ^ 55 + v % 2 ^ 32 * 2 ^ 20)

/-- A run's command: KIND, the unit's slice and even bank, row and CB of a word, ACT and AP, and the remaining fields. -/
def runCommand (kind w cb rest : Nat) : W64 :=
  sealCommand (kind * 2 ^ 59 + sliceOf w * 2 ^ 56 + bankOf w / 2 * 2 * 2 ^ 52 + rowOf w * 2 ^ 42 + cb * 2 ^ 37 + 2 ^ 36 +
    2 ^ 35 + rest)

/-- IBRUN: the words of each block of the run in the destination, and the CB that it carries. -/
def ibrunCommand (cb : Nat) (blocks : List (List Nat)) : W64 :=
  let first := blocks.headD []
  runCommand 0x0A (first.headD 0) cb (wordMask first * 2 ^ 27 + wordMask (blocks.getLastD []) * 2 ^ 19 +
    (blocks.length - 1) % 64 * 2 ^ 13 + bankOf (first.headD 0) % 2 * 2 ^ 12)

/-- KVSET to every slice: format, rows of the pass, SCALE. -/
def kvsetCommand (bf16 : Bool) (rows scale : Nat) : W64 :=
  sealCommand (0x0B * 2 ^ 59 + 2 ^ 55 + ofBool bf16 * 2 ^ 54 + (rows - 1) % 8 * 2 ^ 51 + scale % 2 ^ 32 * 2 ^ 19)

/-- The places of a chunk that a list holds, as a mask. -/
def placeMask (is : List Nat) : Nat := ((List.range 3).map fun i => if is.contains i then 2 ^ i else 0).sum

/-- KVRUN: the chain position of the unit, a word of the first block's page, its CB, the number of blocks, the places
considered in the first and the last block, the first slab page. -/
def kvrunCommand (q page blocks : Nat) (first last : List Nat) (pfirst : Nat) : W64 :=
  sealCommand (0x0C * 2 ^ 59 + q / 8 * 2 ^ 56 + q % 8 * 2 * 2 ^ 52 + rowOf page * 2 ^ 42 + cbOf page / 2 * 2 * 2 ^ 37 + 2 ^ 36 +
    2 ^ 35 + (blocks - 1) % 16 * 2 ^ 31 + placeMask first * 2 ^ 28 + placeMask last * 2 ^ 25 + pfirst % 65536 * 2 ^ 9)

/-- CHAIN: the sending unit and the row index. -/
def chainCommand (q row : Nat) : W64 := sealCommand (0x0D * 2 ^ 59 + q / 8 * 2 ^ 56 + q % 8 * 2 ^ 53 + row % 1024 * 2 ^ 43)

end Sys2Proof.Machine
end

