-- ==== Sys2Proof/Machine/VaultState.lean ====
section
/-! DEFINITION. The state of one vault and its controller (08_vaults.md; 02_tower_construction.md "Line failure in
service"), beyond the registers of its block. -/

namespace Sys2Proof.Machine

/-- The last write burst on the channel, kept until its status can no longer report a failure: word indices, what they
held before, what was written, and whether it is a re-send that has been asked for (R176, R177). -/
structure WriteBurst where
  words : List Nat
  old : List Stored
  new : List Stored
  fails : Nat
  pending : Bool
  /-- KIND of its command: 2, or 5 where it writes a spare segment (R175) -/
  kind : Nat
  /-- the burst belongs to a command of the hand (R178) -/
  ofHand : Bool
  bundle : BitVec 13
  /-- bits in which the failed transfer differed from what was sent (R26) -/
  flips : List Nat
  deriving DecidableEq, Repr

/-- A vault. Stored word w occupies bytes 36w to 36w + 35 of `mem`, its 288 bits little-endian (R171); word i of spare
segment e of slice k occupies them at stored-word index (8k + e) * 64 + i of `spare` (R191). -/
structure Vault where
  mem : Memory
  spare : Memory
  /-- MEM_CE_THRESHOLD is armed (R197) -/
  ceArmed : Bool
  /-- refresh pointer, 0 to 16,383 (R185) -/
  refreshPtr : Fin 16384
  /-- the next slot is one of those handed to the scrubber (R185) -/
  handed : Bool
  /-- a slice has reached 85 C and not every slice has been below 83 C since (R185) -/
  hot : Bool
  /-- handed slots since the rate walker last used one (R187) -/
  walked : Nat
  /-- the time in ms at which the walker's lap began (R187) -/
  lapStart : Nat
  /-- block transfers counted, and the errors attributed to lines: line, and the count at the error (R26) -/
  blocks : Nat
  lineErrs : List (Nat × Nat)
  /-- the block that failed last in the burst being re-sent, and the bits flipped in it (R26) -/
  flipBlock : Nat
  flips : List Nat
  /-- lines declared failing in this rubber, and all that are declared and not steered to a spare (R26, R29) -/
  failingNow : List Nat
  failed : List Nat
  /-- lines whose switch is due at the next refresh slot: a rubber boundary has passed since they were declared (R27, R29) -/
  due : List Nat
  /-- the command placed on the command bus last, and the open rows by slice and bank, each as row + 1 (R175, R180) -/
  cmd : W64
  rows : Tab Nat
  /-- failed transfers of the burst that the controller reads next where no load waits: the bits flipped in each (R177) -/
  noise : List (List Nat)
  /-- the write bursts of the last store, whose status may still be reported -/
  bursts : List WriteBurst
  /-- the burst that the head of the transfer queue reads waits for its re-send (R177) -/
  awaiting : Bool
  /-- FILL_CMP in force in this rubber (R398) -/
  fillCmp : Bool
  /-- the out-of-rate refresh event has been raised since the vault was last in its rate (R186) -/
  rateRaised : Bool
  /-- in self-refresh (R357) -/
  selfRefresh : Bool
  deriving DecidableEq, Repr

/-- A vault after reset: no word listed (log entry 3), MEM_CE_THRESHOLD armed (R197). -/
def Vault.reset : Vault :=
  { mem := [], spare := [], ceArmed := true, refreshPtr := 0, handed := false, hot := false, walked := 0, lapStart := 0, blocks := 0,
    lineErrs := [], flipBlock := 0, flips := [], failingNow := [], failed := [], due := [], cmd := 0, rows := [],
    noise := [], bursts := [],
    awaiting := false, fillCmp := false, rateRaised := false, selfRefresh := false }

end Sys2Proof.Machine
end

