-- ==== Sys2Proof/Machine/SeatState.lean ====
section
/-! DEFINITION. The loaded deal and the seat's part in the table (11_static_schedule.md), beyond the TBL_ registers. -/

namespace Sys2Proof.Machine

/-- An entry of a release table (R244). -/
structure RelEntry where
  release : Nat
  cnt : Nat
  peerSeat : Nat
  peerLcore : Nat
  link : Nat
  kind : Nat
  sendAt : Nat
  dtag : Nat
  hops : Nat
  fhops : Nat
  deriving DecidableEq, Repr

/-- The entries of one trick (R244, section RELEASE of R266). -/
structure RelHead where
  trick : Nat
  entries : List RelEntry
  deriving DecidableEq, Repr

/-- An entry of the TRICKS section (R266): length, planned length, annotated power of each tower. -/
structure TrickEntry where
  len : Nat
  planned : Nat
  power : List Nat
  deriving DecidableEq, Repr

/-- A 240-cycle vault window (section WINDOWS of R266): 1 host, 2 idle. -/
structure WindowEntry where
  trick : Nat
  cycle : Nat
  kind : Nat
  deriving DecidableEq, Repr

/-- A link that the SEAT_MAP names (R266). -/
structure MapLink where
  partner : Nat
  plink : Nat
  width : Nat
  deriving DecidableEq, Repr

/-- An input or output descriptor of a collective entry (R302). -/
structure CollDesc where
  kind : Nat
  operand : Nat
  first : Nat
  nblk : Nat
  place : Nat
  hops : Nat
  peer : Nat
  pdtag : Nat
  sendAt : Nat
  deriving DecidableEq, Repr

/-- An entry of the COLLECTIVE section (R302). -/
structure CollEntry where
  dtag : Nat
  op : Nat
  engine : Nat
  fold : Bool
  norm : Bool
  stats : Bool
  trick : Nat
  nops : Nat
  cnt : Nat
  rows : Nat
  g : Int
  ins : List CollDesc
  outs : List CollDesc
  deriving DecidableEq, Repr

/-- A 256-byte block with its poison mark (R146, R280). -/
structure Block where
  data : BitVec 2048
  poison : Bool
  deriving DecidableEq, Repr

/-- The content of a section of a seat part (R266), as parsed. A HAND section keeps its start indices and its number of
bundles; the bundles themselves go to the hand stores. -/
inductive Body where
  | seatMap (suit role : Nat) (links : List MapLink)
  | tricks (entries : List TrickEntry)
  | slots (starts : List (Nat × Nat))
  | windows (entries : List WindowEntry)
  | hand (starts : List Nat) (bundles : Nat)
  | release (heads : List RelHead)
  | collective (entries : List CollEntry)
  | actTables (valid : Nat) (tables : List (List Byte))
  | kvLayout (cfg tok : W64)
  | variants (lost : List (Nat × Nat))
  deriving DecidableEq, Repr

/-- A section of the loaded seat part. -/
structure Section where
  variant : Nat
  lcore : Nat
  body : Body
  deriving DecidableEq, Repr

/-- The header of a seat part (R265), and its sections. -/
structure Deal where
  seat : Nat
  xdim : Nat
  ydim : Nat
  zdim : Nat
  dummies : Nat
  nvar : Nat
  ntricks : Nat
  rubberCycles : Nat
  kpm : Nat
  clocks : Nat
  holdWin : Nat
  replayLead : Nat
  nrubbers : Nat
  dealId : W64
  seed : BitVec 128
  digest : List Byte
  sections : List Section
  deriving DecidableEq, Repr

/-- A command of the host that has been accepted and not completed: opcode, generation, identifier (R321, R324). -/
structure CmdRef where
  opcode : Byte
  gen : BitVec 4
  id : BitVec 16
  /-- the submission engine's consumer count after its acceptance (R324) -/
  cons : BitVec 32
  deriving DecidableEq, Repr

/-- A clock step that has been accepted (R262). -/
structure StepPlan where
  rubber : BitVec 40
  clock : Nat
  resume : W64
  cmd : CmdRef
  /-- the seat is held at the boundary and divides its clocks -/
  begun : Bool
  /-- taken from HELD: the held rubber is replayed at the resume tick (R270) -/
  replay : Bool
  deriving DecidableEq, Repr

/-- A clock change in progress (R355, R356): its clock, the towers that have begun their first step, and the towers whose
clock generator has reported lock. It goes on to its end whatever becomes of the step that asked for it (R378). -/
structure Division where
  clock : Nat
  begun : BitVec 4
  locked : BitVec 4
  deriving DecidableEq, Repr

/-- A LOAD in progress: its command, the deal, and the bundles for each logical core's hand store (R270, R359). -/
structure Loading where
  cmd : CmdRef
  deal : Deal
  hands : List (Nat × List Byte)
  deriving DecidableEq, Repr

/-- A write to the sequence directory or page table that waits for a rubber boundary (R196). -/
structure SeqWrite where
  addr : Nat
  value : W64
  /-- the cycle, of those that `Seat.cycles` counts, in which the write completed -/
  at_ : Nat
  deriving DecidableEq, Repr

/-- A delivered block waiting in a receive buffer (R147, R286). -/
structure RxBlock where
  lcore : Nat
  dtag : Nat
  blk : Nat
  /-- link die of arrival; 4 for a delivery inside the module -/
  die : Nat
  block : Block
  deriving DecidableEq, Repr

/-- A block that a collective engine holds: of operand `operand` of an entry, or of its result (R304, R309). -/
structure EngBlock where
  dtag : Nat
  operand : Nat
  blk : Nat
  block : Block
  deriving DecidableEq, Repr

/-- What an entry with STATS has summed in this rubber (R310): binary64 encodings and counts. -/
structure EngStats where
  dtag : Nat
  l : Nat
  s : Nat
  cntL : Nat
  cntS : Nat
  deriving DecidableEq, Repr

/-- A collective engine (R301, R309 to R311). -/
structure Engine where
  operands : List EngBlock
  results : List EngBlock
  /-- entries abandoned in this rubber (R309) -/
  abandoned : List Nat
  stats : List EngStats
  /-- events raised in this rubber: entry and code (R311) -/
  raised : List (Nat × Nat)
  /-- entries completed, and the highest count of blocks held, in this rubber -/
  done : Nat
  peak : Nat
  deriving DecidableEq, Repr

/-- An engine with nothing in it. -/
def Engine.reset : Engine :=
  { operands := [], results := [], abandoned := [], stats := [], raised := [], done := 0, peak := 0 }

/-- The seat: schedule counters, the loaded deal, and what is pending (R240 to R271). -/
structure Seat where
  /-- the identity that discovery has given the seat (R294, R296); TBL_STAT.SEAT shows it -/
  ident : BitVec 10
  trick : BitVec 24
  cycle : BitVec 24
  /-- cycles since the rubber began -/
  rubberCycle : Nat
  /-- root-clock cycles since the last tick edge, 0 to 95 -/
  phase : Nat
  /-- cycles of CLK_CORE that have passed, and that count when the present rubber began, replays included (R16) -/
  cycles : Nat
  began : Nat
  deal : Option Deal
  /-- a part that waits for its cores to be ON -/
  loading : Option Loading
  /-- the tick named by START, and its command -/
  startAt : Option (W64 × CmdRef)
  /-- the tick at which the held rubber is replayed: by an episode, or by REPLAY with its variant and command -/
  replayAt : Option (W64 × Option (Nat × CmdRef))
  /-- the rubber and variant named by VARIANT, and its command -/
  variantAt : Option (BitVec 40 × Nat × CmdRef)
  /-- the variants in which the rubbers near the present one began (R261) -/
  variants : List (BitVec 40 × Nat)
  /-- accepted STOP commands that wait for STOPPED -/
  stops : List CmdRef
  step : Option StepPlan
  division : Option Division
  /-- strongest kind of the notices of the episode, once there is one: 0 replay, 1 hold (escalate included), 2 stop -/
  hold : Option Nat
  /-- lowest rubber named by the notices of the episode (R253) -/
  lowest : Option (BitVec 40)
  /-- notices taken already, so that each is passed on once (R249) -/
  seen : List Notice
  /-- replay notices of the current rubber, for R258 -/
  replays : List Notice
  /-- attempts of the present rubber and the one before it (R254) -/
  attempts : List (BitVec 40 × Nat)
  /-- TBL_REPLAY_CFG.LIMIT as latched at the rubber start -/
  limit : Nat
  seqHeld : List SeqWrite
  rx : List RxBlock
  /-- least deadline margin of the current rubber and its trick (R272) -/
  margin : Nat × Nat
  deriving DecidableEq, Repr

/-- The seat after reset: no deal, counters zero. -/
def Seat.reset : Seat :=
  { ident := 0, trick := 0, cycle := 0, rubberCycle := 0, phase := 0, cycles := 0, began := 0, deal := none, loading := none, startAt := none,
    replayAt := none, variantAt := none, variants := [], stops := [], step := none, division := none, hold := none, lowest := none, seen := [], replays := [], attempts := [], limit := 3,
    seqHeld := [], rx := [], margin := (0xFFFFFF, 0) }

end Sys2Proof.Machine
end

