-- ==== Sys2Proof/Config.lean ====
section
/-! DEFINITION. What the spec leaves open: free values, constants without a body, so that no proof can see what they
are. -/

namespace Sys2Proof

/-- Free value: the encoding of element i of a stationary buffer that nothing has loaded since it was last emptied, at the
given draw (the spec says what an MMA waits for and what it compares, and nothing of such an element's value; log entry
22). -/
opaque Config.emptyElement : Nat → Nat → Nat

/-- Free value: the 16-bit random value of a cell of a drain whose DRM selects stochastic rounding (R52 needs one; a drain
carries no stream selector or base index): a function of the seed, the rubber number, the logical core, the number of the
MDRN in its rubber and the cell, so that every run and replay of a rubber rounds alike (R53, R64; log entry 23). -/
opaque Config.drainRandom : W64 → W64 → Nat → Nat → Nat → Nat → Nat

/-- Free value: ARG of VCH_LINE_FAILING for a group and an index (R26 says what it names, not where; log entry 24). -/
opaque Config.lineFailingArg : Nat → Nat → W64

/-- Free value: ARG of VCH_GROUP_EXHAUSTED for a group (R28; log entry 24). -/
opaque Config.groupExhaustedArg : Nat → W64

/-- Free value: ARG of LAYER_TRIM_LIMIT for a tower and a point (R33; log entry 24). -/
opaque Config.trimLimitArg : Nat → Nat → W64

/-- Free value: ARG of BOND_WEAR for a tower and a count (R35; log entry 24). -/
opaque Config.bondWearArg : Nat → Nat → W64

/-- Free value: the next estimate E of the first-order filter of R366 from the present one, if any, and the raw value, in 1/16 K
(the spec gives the time constant and no arithmetic; log entry 25). -/
opaque Config.shadowFilter : Option Int → Int → Int

/-- Free value: the next estimate of the crown, the heel or the base from the present one and the temperatures of its two
neighbours (R366 gives those dies no dissipation; log entry 25). -/
opaque Config.dieEstimate : Option Int → Option Int → Option Int → Int

/-- Free value: the digest of measurement 1, of measurement 2 by the number of images started by ACTIVATE or recovery, and of
measurement 4 (the images and the factory part lie outside the spec; log entry 26). -/
opaque Config.spdmDigest : Nat → Nat → List Byte

/-- Free value: the digest of measurement 5 over the verified batches (their byte form lies outside the spec; log entry
26). -/
opaque Config.ledgerDigest : List (List Machine.LedgerRec) → List Byte

/-- Free value: the measurement summary hash over blocks, and the hash of the certificate chain (DMTF formats; log entry
26). -/
opaque Config.summaryHash : List (Nat × List Byte) → List Byte
opaque Config.chainHash : List Byte

/-- Free value: the signature of the i-th signed SPDM answer (log entry 26). -/
opaque Config.spdmSignature : Nat → List Byte

/-- Free value: the bytes of an SPDM answer (DSP0274 lays them out, not the spec; log entry 26). -/
opaque Config.spdmBytes : Machine.SpdmAnswer → List Byte

/-- Free value: PAGE of XQRY's result where OWN = 0, by core, rubber and address (R153 gives it a meaning only where OWN = 1,
and says that it stays the same throughout a rubber; log entry 27). -/
opaque Config.xqryPage : Nat → Nat → W64 → BitVec 14

/-- Free value: the bytes of a HELLO message (R294 lists its content, not its layout; log entry 28). -/
opaque Config.helloBytes : Machine.Hello → List Byte

/-- Free value: the module's device certificate chain, and its device certificate (log entry 28). -/
opaque Config.certChain : List Byte
opaque Config.deviceCert : List Byte

/-- Free value: the i-th fresh nonce that a link draws (R294; log entry 28). -/
opaque Config.nonce : Nat → Nat → BitVec 256

/-- Free value: byte i of the signature of a RESPONSE over the partner's nonce, the own one and the digests of both HELLOs
(log entry 28). -/
opaque Config.responseByte : BitVec 256 → BitVec 256 → List Byte → List Byte → Nat → Byte

/-- Free value: block i of the hub SRAM reading that the helper data in flash was made for (R404; log entry 78). -/
opaque Config.enrolled : Nat → BitVec 2048

/-- Free value: ARG of SEC_PUF_FAIL where every block is corrected and the sealed private key alone fails (R405; log entry
78). -/
opaque Config.pufArg : W64

/-- Free value: the bytes of the PLDM answer to a PLDM request (DSP0248 lays them out, not the spec; log entry 26). -/
opaque Config.pldmReply : List W64 → List Byte → List Byte

/-- Free value: the bytes of a CONFIRM message with a result and a proposed rubber (log entry 28). -/
opaque Config.confirmBytes : Nat → Nat → List Byte

end Sys2Proof
end

