-- ==== Sys2Proof/Machine/Shake.lean ====
section
/-! DEFINITION. SHAKE256 of FIPS 202, which R53 (random values), R264 (deal digests), R294 (certificate digests), R404 (the
root secret) and R406 name; the spec takes the published standard as known (00_scope.md "Readers"). -/

namespace Sys2Proof.Machine

/-- The 25 lanes of the Keccak state, lane x + 5y at position x + 5y. -/
abbrev Keccak := List W64

/-- One lane of the state. -/
def Keccak.at (a : Keccak) (i : Nat) : W64 := a.getD i 0

/-- The rotation offsets of step rho, lane x + 5y at position x + 5y. -/
def keccakRho : List Nat :=
  [0, 1, 62, 28, 27, 36, 44, 6, 55, 20, 3, 10, 43, 25, 39, 41, 45, 15, 21, 8, 18, 2, 61, 56, 14]

/-- The round constants of step iota. -/
def keccakRc : List W64 :=
  [0x0000000000000001, 0x0000000000008082, 0x800000000000808A, 0x8000000080008000, 0x000000000000808B,
   0x0000000080000001, 0x8000000080008081, 0x8000000000008009, 0x000000000000008A, 0x0000000000000088,
   0x0000000080008009, 0x000000008000000A] ++
  [0x000000008000808B, 0x800000000000008B, 0x8000000000008089, 0x8000000000008003, 0x8000000000008002,
   0x8000000000000080, 0x000000000000800A, 0x800000008000000A, 0x8000000080008081, 0x8000000000008080,
   0x0000000080000001, 0x8000000080008008]

/-- Step theta. -/
def keccakTheta (a : Keccak) : Keccak :=
  let c := (List.range 5).map fun x => a.at x ^^^ a.at (x + 5) ^^^ a.at (x + 10) ^^^ a.at (x + 15) ^^^ a.at (x + 20)
  (List.range 25).map fun i =>
    a.at i ^^^ (Keccak.at c ((i + 4) % 5) ^^^ (Keccak.at c ((i + 1) % 5)).rotateLeft 1)

/-- Steps rho and pi: the lane at (x, y) moves to (y, 2x + 3y). -/
def keccakRhoPi (a : Keccak) : Keccak :=
  (List.range 25).map fun j =>
    let x' := j % 5
    let y' := j / 5
    let x := (x' + 3 * y') % 5
    let i := x + 5 * x'
    (a.at i).rotateLeft (keccakRho.getD i 0)

/-- Step chi. -/
def keccakChi (a : Keccak) : Keccak :=
  (List.range 25).map fun i =>
    let y := i / 5 * 5
    a.at i ^^^ (~~~ (a.at (y + (i + 1) % 5)) &&& a.at (y + (i + 2) % 5))

/-- One round of Keccak-f[1600]. -/
def keccakRound (a : Keccak) (rc : W64) : Keccak :=
  match keccakChi (keccakRhoPi (keccakTheta a)) with
  | [] => []
  | x :: xs => (x ^^^ rc) :: xs

/-- Keccak-f[1600]. -/
def keccakF (a : Keccak) : Keccak := keccakRc.foldl keccakRound a

/-- 64-bit little-endian lanes of a byte string. -/
def lanesOfBytes : Nat → List Byte → List W64
  | 0, _ => []
  | n + 1, bs => BitVec.ofNat 64 (leNat (bs.take 8)) :: lanesOfBytes n (bs.drop 8)

/-- A rate block of 136 bytes absorbed into the state. -/
def keccakAbsorb (a : Keccak) (block : List Byte) : Keccak :=
  keccakF ((List.range 25).map fun i => a.at i ^^^ Keccak.at (lanesOfBytes 17 block) i)

/-- The message padded for SHAKE: the bits 1111, then pad10*1 to a multiple of 136 bytes. -/
def shakePad (m : List Byte) : List Byte :=
  let k := 136 - m.length % 136
  if k = 1 then m ++ [0x9F] else m ++ [0x1F] ++ List.replicate (k - 2) 0 ++ [0x80]

/-- Absorption of the padded message, n blocks. -/
def shakeAbsorb : Nat → Keccak → List Byte → Keccak
  | 0, a, _ => a
  | n + 1, a, m => shakeAbsorb n (keccakAbsorb a (m.take 136)) (m.drop 136)

/-- The bytes of the rate part of a state. -/
def keccakRate (a : Keccak) : List Byte := (a.take 17).flatMap fun w => leBytes 8 w.toNat

/-- n rate blocks of output. -/
def shakeSqueeze : Nat → Keccak → List Byte
  | 0, _ => []
  | n + 1, a => keccakRate a ++ shakeSqueeze n (keccakF a)

/-- The first n bytes of SHAKE256 of a message (FIPS 202). -/
def shake256 (m : List Byte) (n : Nat) : List Byte :=
  let p := shakePad m
  (shakeSqueeze (n / 136 + 1) (shakeAbsorb (p.length / 136) (List.replicate 25 0) p)).take n

/-- The 512-bit SHAKE256 digest, 64 bytes (R406). -/
def digest512 (m : List Byte) : List Byte := shake256 m 64

/-! ### The root secret (R404) -/

/-- The bytes of a text in ASCII. -/
def asciiBytes (t : String) : List Byte := t.toList.map fun c => BitVec.ofNat 8 c.toNat

/-- The root secret of a corrected reading of 32 blocks of 2,048 bits. -/
def rootOf (blocks : List (BitVec 2048)) : List Byte := digest512 (blocks.flatMap fun b => leBytes 256 b.toNat)

/-- The two values derived from the root secret: the sealing key and the counter key. -/
def sealingKey (root : List Byte) : List Byte := shake256 (root ++ asciiBytes "PH9-SEAL") 32
def counterKeyOf (root : List Byte) : List Byte := shake256 (root ++ asciiBytes "PH9-CTR") 32

/-- The reading that the helper data in flash was made for, which correction restores (log entry 78). -/
def enrolledReading : List (BitVec 2048) := (List.range 32).map Config.enrolled

/-- The root secret of this module. -/
def rootSecret : List Byte := rootOf enrolledReading

end Sys2Proof.Machine
end

