-- ==== Sys2Proof/Machine/ModuleState.lean ====
section
/-! DEFINITION. The state of the module's outer parts beyond their registers: in-bank units (09, 10), links (12), host
ports (14), power (15), heat (16), bring-up and the repair ledger (02, 17), identity and management (18). -/

namespace Sys2Proof.Machine

/-! ### In-bank units -/

/-- A unit's report (R213): the unit, its KIND 0 to 2, the symbol, the word, and the bundle of its command. -/
structure IbReport where
  unit : Nat
  kind : Nat
  symbol : Nat
  word : Nat
  bundle : BitVec 13
  deriving DecidableEq, Repr

/-- The report queue of a slice, up to four, and the reports it has lost (R213, R214). -/
structure IbSlice where
  queue : List IbReport
  lost : Nat
  deriving DecidableEq, Repr

/-- The state of one query row (R227), with its poison. -/
structure KvRow where
  m : Nat
  l : Nat
  o : List Nat
  poison : Bool
  deriving DecidableEq, Repr

/-- A block of a KV-attend (R224): its slots in ascending order, each with the vault address of its page. -/
structure KvBlock where
  page : Nat
  vbase : Nat
  slots : List Nat
  deriving DecidableEq, Repr

/-- A run (R234): the unit's chain position and its blocks. -/
structure KvRun where
  q : Nat
  blocks : List KvBlock
  deriving DecidableEq, Repr

/-- The KV-attend in progress (R233 to R236): the present pass, whether its KVSET has gone, the runs still to start, the
rows held by the units (chain position, row), and the record registers of the units. -/
structure KvPass where
  pass : Nat
  set : Bool
  /-- the context word and the query rows that KVSET brought to the units, with the poison of each row -/
  context : BitVec 256
  queries : List (BitVec 2048 × Bool)
  runs : List KvRun
  /-- lowest chain position holding a block of the pass -/
  qlo : Nat
  states : List (Nat × Nat × KvRow)
  /-- the row that is loaded next at `qlo`, and the record registers in use: position, row, and the record that arrived (R217) -/
  row : Nat
  records : List (Nat × Nat × KvRow)
  /-- NUM_SCALE_NAN has been raised for this KV-attend -/
  nan : Bool
  deriving DecidableEq, Repr

/-- The pass of a KV-attend before its KVSET. -/
def KvPass.fresh (g : Nat) (nan : Bool) : KvPass :=
  { pass := g, set := false, context := 0, queries := [], runs := [], qlo := 0, states := [], row := 8 * g, records := [], nan }

/-- The in-bank side of a vault. -/
structure InBank where
  slices : Vector IbSlice 8
  /-- the slice the return bus served last (R213) -/
  last : Fin 8
  /-- slices of which a unit has been active in the present cycle -/
  active : BitVec 8
  /-- IB_CE_THRESHOLD is armed (R215) -/
  armed : Bool
  kv : Option KvPass
  deriving DecidableEq, Repr

/-- The in-bank side after reset. -/
def InBank.reset : InBank :=
  { slices := Vector.replicate 8 { queue := [], lost := 0 }, last := 7, active := 0, armed := true, kv := none }

/-! ### Links -/

/-- A sequenced frame in a replay buffer: its number, and how often it has been sent (R282). -/
structure Held where
  seq : BitVec 16
  frame : Frame
  sends : Nat
  /-- the table time at which it was last sent -/
  at_ : Nat
  deriving DecidableEq, Repr

/-- The stages of training and discovery (R276). -/
inductive Stage where
  | idle | detect | equalise | check | align | discover
  deriving DecidableEq, Repr

/-- A link beyond its registers. -/
structure Link where
  stage : Stage
  /-- lanes that passed the own end's last Check (R276) -/
  passed : BitVec 4
  /-- failed attempts in a row (R277) -/
  fails : Nat
  replay : List Held
  /-- position in the replay buffer of the next frame to send again -/
  cursor : Nat
  /-- frames not yet sent, in the order in which they became ready, each with whether it is a send of this seat; the content
  of a TIME frame is that of its sending (R284, R298) -/
  out : List (Frame × Bool)
  /-- notices to send, with the copies left (R283) -/
  notices : List (Notice × Nat)
  nextSeq : BitVec 16
  expect : BitVec 16
  nak : Bool
  /-- the last ACKSEQ that a NAK of the partner named (R282) -/
  lastNak : Option (BitVec 16)
  /-- frames in a row whose CRC failed (R281) -/
  bad : Nat
  /-- the partner's last HELLO, and the own one sent last -/
  hello : Option Hello
  said : Option Hello
  /-- CERT received, and whether the chain verified; RESPONSE received, and whether it verified -/
  cert : Option Bool
  resp : Option Bool
  /-- the partner's nonce; nonces drawn for this link -/
  nonce : Option (BitVec 256)
  nonces : Nat
  /-- the own CONFIRM and the partner's: result and proposed rubber (R294, R297) -/
  own : Option (Nat × Nat)
  theirs : Option (Nat × Nat)
  /-- fragments of the message that is arriving, oldest first -/
  frags : List (BitVec 2048)
  /-- first rubber whose traffic the link carries (R297) -/
  admission : Option (BitVec 40)
  /-- partner seat, link and certificate digest recorded at LOAD (R297) -/
  recorded : Option (Nat × Nat × List Byte)
  /-- the 100 ms window, its re-sends, and whether LNK_ERROR_RATE was raised in it (R300) -/
  window : Nat
  resends : Nat
  rated : Bool
  /-- rubber or millisecond of the last LNK_DROP (R300) -/
  dropped : Option Nat
  deriving DecidableEq, Repr

/-- A link after reset: DOWN, signal detection begun (R276), nothing buffered. -/
def Link.reset : Link :=
  { stage := .detect, passed := 0, fails := 0, replay := [], cursor := 0, out := [], notices := [], nextSeq := 0,
    expect := 0, nak := false, lastNak := none, bad := 0, hello := none, said := none, cert := none,
    resp := none, nonce := none, nonces := 0, own := none, theirs := none, frags := [], admission := none, recorded := none, window := 0, resends := 0, rated := false, dropped := none }

/-! ### Host ports -/

/-- A completion record (R324). -/
structure Completion where
  cmd : CmdRef
  status : Nat
  detail : Nat
  retry : Nat
  tick : W64
  /-- host lines written before the record: the reply to a MGMT request (R416) -/
  lines : List (Nat × List Byte)
  deriving DecidableEq, Repr

/-- A Crix record (R331). -/
structure CxRecord where
  rtype : Nat
  flags : Nat
  tag : Nat
  lcore : Nat
  status : Nat
  addr : Nat
  len : Nat
  deal : W64
  /-- the channel it arrived on -/
  ch : Fin 2
  /-- header bytes that must be zero are zero -/
  clean : Bool
  /-- data words with their poison bits -/
  words : List (BitVec 256 × Bool)
  deriving DecidableEq, Repr

/-- A vault access of the host: through the vault window (aperture offset), by STAGE, or for a Crix record or the egress
engine. -/
inductive Access where
  | read (off len : Nat)
  | write (off : Nat) (data : List Byte) (poison : Bool)
  /-- a STAGE, with the cycle in which it was accepted while a rubber ran (R16, R326) -/
  | stage (word : Nat) (data : BitVec 256) (at_ : Option Nat) (cmd : CmdRef)
  /-- a Crix record, with the words already moved (R333) -/
  | record (r : CxRecord) (done : Nat)
  | egress (rubber : Nat)
  deriving DecidableEq, Repr

/-- What the module has sent out of its ports. -/
inductive Sent where
  | hostLine (addr : Nat) (data : List Byte)
  /-- a read of host memory: address and bytes (R317, R320, R321) -/
  | hostFetch (addr len : Nat)
  | irq (vector : Nat)
  | readData (addr : Nat) (data : List Byte) (poison : List Bool)
  /-- a frame on a link: each lane in use with the bytes it carries -/
  | linkFrame (l : Nat) (lanes : List (Nat × List Byte))
  /-- a Crix frame -/
  | crixFrame (bytes : List Byte)
  | spdm (a : SpdmAnswer)
  /-- a PLDM platform event to the fleet manager (R379, 18 "The management processor") -/
  | pldmEvent (r : Record)
  deriving DecidableEq, Repr

/-- What a MGMT request asks of the management processor (R416): an SPDM request that R410 supports, another one, a PLDM
message, a firmware operation, the telemetry snapshot. -/
inductive MgmtKind where
  | spdm | spdmOther | pldm | fwStage | fwActivate | fwCommit | telemetry
  deriving DecidableEq, Repr

/-- A MGMT request in the processor's queue: its command, what it asks, the host address for the reply. -/
structure MgmtReq where
  cmd : CmdRef
  kind : MgmtKind
  reply : W64
  deriving DecidableEq, Repr

/-- The host interface beyond its registers. -/
structure HostPort where
  /-- LAST generation of each identifier; 15 where unlisted (R323) -/
  lastGen : Tab Nat
  /-- accepted commands that have not completed -/
  opened : List CmdRef
  /-- completions that wait in the hub for Turelink, the ring or its enable (R316, R320) -/
  held : List Completion
  /-- accesses that wait for a host window (R15, R333), with the logical core, in order of arrival -/
  accesses : List (Nat × Access)
  /-- Turelink lanes in use: all 16, lanes 0 to 7, lanes 8 to 15, or none (R316) -/
  lanes : BitVec 16
  /-- host lines held, all shared: the watched line, by its address (R317, R320) -/
  lines : List Nat
  /-- PROD as last read, and the descriptors posted that wait for room in the completion ring (R320) -/
  prod : Nat
  todo : List Fetched
  /-- ms of the last HST_STALE (R337) -/
  staleMs : Option Nat
  /-- the tick since when the engine has waited for room in the completion ring (R320, R337) -/
  fullSince : Option Nat
  deriving DecidableEq, Repr

/-- The host interface after reset: Turelink down (log entry 30), nothing open. -/
def HostPort.reset : HostPort :=
  { lastGen := [], opened := [], held := [], accesses := [], lanes := 0, lines := [], prod := 0, todo := [],
    staleMs := none, fullSince := none }

/-- A Crix DATA frame held for re-send or waiting to be sent. -/
structure CxFrame where
  ch : Nat
  sor : Bool
  payload : List Byte
  deriving DecidableEq, Repr

/-- The state of the egress of a rubber (R335): the rubber, the words read once they have been. -/
structure Egress where
  rubber : Nat
  deal : W64
  words : Option (List (BitVec 256 × Bool))
  deriving DecidableEq, Repr

/-- The Crix port beyond its registers. -/
structure Crix where
  replay : List (BitVec 16 × CxFrame × Nat)
  out : List CxFrame
  nextSeq : BitVec 16
  expect : BitVec 16
  nak : Bool
  /-- an acknowledgement or a NAK is to be told (R329) -/
  owes : Bool
  lastNak : Option (BitVec 16)
  /-- credits held for the peer's buffers, and credits to return -/
  credits : Vector Nat 2
  freed : Vector Nat 2
  /-- frames of the record that is arriving, by channel -/
  parts : Vector (List (List Byte)) 2
  /-- complete records that wait to be performed, by channel -/
  ready : Vector (List CxRecord) 2
  egress : List Egress
  deriving DecidableEq, Repr

/-- The Crix port after reset: down, empty, no credit. -/
def Crix.reset : Crix :=
  { replay := [], out := [], nextSeq := 0, expect := 0, nak := false, owes := false, lastNak := none,
    credits := Vector.replicate 2 0, freed := Vector.replicate 2 0, parts := Vector.replicate 2 [],
    ready := Vector.replicate 2 [], egress := [] }

/-! ### Power and heat -/

/-- The power supervisor of a tower beyond its registers. -/
structure TowerPower where
  /-- the activity counts of the present governor window (R350) -/
  counts : Vector Nat 12
  /-- phases whose signal is asserted, and the tick since when each has been (R344) -/
  good : BitVec 22
  since : Vector Nat 22
  /-- WIN of the next span (R354) -/
  nextWin : Nat
  /-- PWR_BUBBLE_SAT has been raised in this rubber (R353) -/
  saturated : Bool
  /-- core cycles of droop response left on the heel and the crown, the cycle of the detection among them (R348) -/
  response : Vector Nat 2
  /-- tick of the last PWR_DROOP, and responses since -/
  droopAt : Option Nat
  droops : Nat
  /-- keep-warm w (R372), and the tick since when it is at its limit (R373) -/
  warm : Nat
  warmSince : Option Nat
  /-- terms of R370: STOP, CUT, J, M, FC -/
  terms : Vector Nat 5
  /-- J and M have raised THM_LIMIT in this rubber (R369) -/
  limited : Bool × Bool
  deriving DecidableEq, Repr

/-- A tower's power supervisor after reset. -/
def TowerPower.reset : TowerPower :=
  { counts := Vector.replicate 12 0, good := 0, since := Vector.replicate 22 0, nextWin := 0, saturated := false,
    response := Vector.replicate 2 0, droopAt := none, droops := 0, warm := 0, warmSince := none,
    terms := Vector.replicate 5 0, limited := (false, false) }

/-- The thermal supervisor of a tower beyond its registers. Sensor indices: 0 to 67 and 68 to 135 the A and B sensors of
the tower's cores, 136 to 679 the slices (8 x vault + slice), 680 to 687 the base, 688 to 691 the lid. -/
structure TowerHeat where
  /-- invalid samples in a row, and the sensors marked invalid (R364) -/
  runs : Tab Nat
  invalid : List Nat
  /-- samples in a row in which the core's pair differed by more than 5 K (R365) -/
  differ : Tab Nat
  /-- the last samples in 1/16 K, by sensor; none where invalid -/
  last : List (Option Int)
  /-- lid means of the last 110 samples, newest first (R377) -/
  lids : List Int
  /-- computations in a row in which a layer's estimate exceeded its samples (R367) -/
  above : Vector Nat 8
  /-- words and unit-cycles of each layer since the last estimate (R366) -/
  layer : Vector (Nat × Nat) 8
  /-- bond wear (R34): the extreme since the reading last turned, whether it rises, the trough before -/
  extreme : Option Int
  rising : Bool
  trough : Int
  /-- the last ten seconds for R375, newest first: lid, inlet, total power; and the values of RTH learned for BASE -/
  seconds : List (Int × Int × Nat)
  learned : List Nat
  /-- tick of the last forecast (R371) -/
  forecast : Option Nat
  /-- tick at which the lid rate last exceeded 0.5 K/ms (R378) -/
  fast : Option Nat
  /-- the tick at which each event was last raised: code and tick (R380) -/
  raised : List (Nat × Nat)
  deriving DecidableEq, Repr

/-- A tower's thermal supervisor after reset. -/
def TowerHeat.reset : TowerHeat :=
  { runs := [], invalid := [], differ := [], last := [], lids := [], above := Vector.replicate 8 0,
    layer := Vector.replicate 8 (0, 0), extreme := none, rising := false, trough := 0, seconds := [], learned := [],
    forecast := none, fast := none, raised := [] }

/-! ### Bring-up, ledger and pins -/

/-- The repair ledger (R37 to R39). -/
structure Ledger where
  factory : List LedgerRec
  /-- batches in flash -/
  batches : List (List LedgerRec)
  /-- records in hub SRAM, not yet in a batch on flash -/
  queue : List LedgerRec
  /-- the records that bring-up verified and those appended since, in order -/
  applied : List LedgerRec
  deriving DecidableEq, Repr

/-- A sparing in progress (R392). -/
structure Sparing where
  retired : PCore
  spare : Option PCore
  copy : Bool
  reason : Nat
  deriving DecidableEq, Repr

/-- Bring-up, resets, pins and clocks. -/
structure Boot where
  ledger : Ledger
  /-- this power-on has ended in an orderly power-off; the one before did, and its mark has verified (R34, R387) -/
  orderly : Bool
  wasOrderly : Bool
  /-- power-offs that were not orderly and no bring-up has counted yet; bond cycles of each tower counted before its count
  was read from the ledger (R34) -/
  offs : Nat
  early : Vector Nat 4
  /-- rows replaced by a spare row of their bank: core, slice, bank, row (R192, R385) -/
  spared : List (PCore × Nat × Nat × Nat)
  /-- towers whose clock has failed (R33) -/
  clockLost : BitVec 4
  /-- table time at the start of bring-up -/
  began : Nat
  /-- pins: RESET_N, PWR_GO, THERMTRIP_N, REFCLK within tolerance -/
  resetN : Bool
  pwrGo : Bool
  thermtripN : Bool
  refclk : Bool
  /-- clocks other than CLK_TICK and CLK_MGT run (R379) -/
  clocks : Bool
  /-- waves of self-test done (R382) -/
  waves : Nat
  /-- the towers whose cores a compute reset covers, while one runs -/
  resetting : BitVec 4
  /-- the memory test that the running compute reset asked for: 0 none, 1 quick, 2 full -/
  resetTest : Nat
  sparing : Option Sparing
  /-- THM_LIMIT has been raised in the present period of invalid coolant readings (R374) -/
  coolantRaised : Bool
  /-- retirements raised with PENDING = 1 -/
  retirePend : List (PCore × Nat)
  deriving DecidableEq, Repr

/-- Before the first power-on: an empty ledger (log entry 31), no power-off that was not orderly (log entry 76), rails not yet
good. -/
def Boot.reset : Boot :=
  { ledger := { factory := [], batches := [], queue := [], applied := [] }, orderly := true, wasOrderly := true, offs := 0,
    early := Vector.replicate 4 0, spared := [], clockLost := 0, began := 0,
    resetN := true, pwrGo := false, thermtripN := true, refclk := true, clocks := true, waves := 0, resetting := 0,
    resetTest := 0, sparing := none, coolantRaised := false, retirePend := [] }

/-- The management processor and identity beyond their registers (18). -/
structure Sec where
  /-- the ROM's key registers: the root secret until the management firmware starts, the sealing key, the counter key
  (R404) -/
  root : Option (List Byte)
  sealKey : Option (List Byte)
  counterKey : Option (List Byte)
  /-- the identity is available (R405) -/
  identity : Bool
  /-- the slot marked preferred, the replay-protected counter (both in flash), and the slot that STAGE has filled with a
  verified image, with its SVN -/
  preferred : Fin 2
  counter : Nat
  staged : Option (Fin 2 × Nat)
  /-- MGMT requests accepted and not answered -/
  queue : List MgmtReq
  restarting : Bool
  /-- the image started by ACTIVATE runs, and whether it has run for 60 s (R409) -/
  activated : Bool
  committable : Bool
  /-- images started by ACTIVATE or recovery so far -/
  images : Nat
  /-- the TAP instruction loaded (R413, R414) -/
  tap : TapOp
  /-- ticks of the last MGT_OVERLOAD, MGT_LOG_OVERRUN and event-log interrupt (R417 to R419) -/
  overloadAt : Option Nat
  overrunAt : Option Nat
  irqAt : Option Nat
  /-- PLDM platform events that wait for the processor, oldest first (R415, R417) -/
  alerts : List Record
  /-- latest PLDM samples, in sensor order -/
  sensors : List W64
  deriving DecidableEq, Repr

/-- The management side at power-on. -/
def Sec.reset : Sec :=
  { root := some rootSecret, sealKey := some (sealingKey rootSecret), counterKey := some (counterKeyOf rootSecret),
    identity := true, preferred := 0, counter := 0, staged := none, queue := [], restarting := false, activated := false,
    committable := false, images := 0, tap := .bypass, overloadAt := none, overrunAt := none, irqAt := none, alerts := [],
    sensors := [] }

end Sys2Proof.Machine
end

