-- ==== Sys2Proof/Machine/Regs.lean ====
section
/-! DEFINITION. The control address map (00_scope.md R3) and every control register of the module: its address, the
access types of its bits (R5) and its reset value (R8). A field whose Reset column says "ledger" reads zero until
bring-up loads it. -/

namespace Sys2Proof.Machine

/-- One row of the register tables: `n1` registers `s1` bytes apart, repeated `n2` times `s2` bytes apart, with the bit
ranges of each access type of R5. RO and RSV bits are those in no range. -/
structure RegRow where
  first : Nat
  n1 : Nat := 1
  s1 : Nat := 8
  n2 : Nat := 1
  s2 : Nat := 8
  rw : List (Nat × Nat) := []
  w1c : List (Nat × Nat) := []
  w1s : List (Nat × Nat) := []
  reset : Nat := 0
  /-- A write has no effect and is logged (PMU_SAMPLES, SEC_EVTLOG). -/
  readOnlyLogged : Bool := false
  deriving DecidableEq, Repr

/-- The row covers an offset. -/
def RegRow.covers (r : RegRow) (o : Nat) : Bool :=
  decide (r.first ≤ o) &&
    (let d := o - r.first
     decide (d / r.s2 < r.n2 ∧ d % r.s2 % r.s1 = 0 ∧ d % r.s2 / r.s1 < r.n1) ||
     (r.n2 == 1 && decide (d % r.s1 = 0 ∧ d / r.s1 < r.n1)))

/-- The mask of a list of bit ranges. -/
def rangesMask (l : List (Nat × Nat)) : W64 := l.foldl (fun m r => m ||| fldMask 64 r.1 r.2) 0

/-- Base of the power and thermal block (R3). -/
def powerBase : Nat := 0x01000000
/-- Base of the block of a link. -/
def linkBase (l : LinkIx) : Nat := 0x02000000 + l.val * 0x10000
/-- Base of the host interfaces block. -/
def hostBase : Nat := 0x03000000
/-- Base of the management and security mailbox block. -/
def secBase : Nat := 0x04000000
/-- Base of the global performance monitor block. -/
def pmuBase : Nat := 0x05000000
/-- Base of the per-core block of a physical core. -/
def coreBase (p : PCore) : Nat := 0x100000000 + p.val * 0x100000
/-- Base of the vault controller block of a physical core. -/
def vaultBase (p : PCore) : Nat := coreBase p + 0x10000
/-- Base of the in-bank control block of a physical core. -/
def ibBase (p : PCore) : Nat := coreBase p + 0x20000
/-- Base of the counters block of a physical core. -/
def countBase (p : PCore) : Nat := coreBase p + 0x30000
/-- Base of the hand-store window of a physical core. -/
def handBase (p : PCore) : Nat := coreBase p + 0x40000

/-! ### Register addresses, by the names of the spec -/

namespace Reg

def TBL_LAYER_TRIM (t : Tower) : Nat := 0x1000 + 8 * t.val
def TBL_LAYER_TRIM_STAT (t : Tower) : Nat := 0x1020 + 8 * t.val
def TBL_CORE_MAP (d : Die) (k : Nat) : Nat := 0x2000 + 0x20 * d.val + 8 * k
def TBL_STAT : Nat := 0x3000
def TBL_TIME : Nat := 0x3008
def TBL_RUN : Nat := 0x3010
def TBL_DEAL : Nat := 0x3018
def TBL_NOTICE : Nat := 0x3020
def TBL_NOTICE_HI : Nat := 0x3028
def TBL_NOTICE_TICK : Nat := 0x3030
def TBL_MISDEAL : Nat := 0x3038
def TBL_REPLAY_CFG : Nat := 0x3040
def TBL_MARGIN : Nat := 0x3048
def TBL_FORM : Nat := 0x3100
def TBL_FORM_STAT : Nat := 0x3108
def TBL_COLL_STAT (e : EngIx) : Nat := 0x4000 + 0x40 * e.val
def TBL_COLL_FLAGS (e : EngIx) : Nat := 0x4008 + 0x40 * e.val
def TBL_COLL_NORM_LOCAL (e : EngIx) : Nat := 0x4010 + 0x40 * e.val
def TBL_COLL_NORM_RESULT (e : EngIx) : Nat := 0x4018 + 0x40 * e.val
def TBL_COLL_NORM_CNT (e : EngIx) : Nat := 0x4020 + 0x40 * e.val
def TBL_BOOT_STAT : Nat := 0x5000
def TBL_RESET : Nat := 0x5008
def TBL_SPARE_CTL : Nat := 0x5010
def TBL_SPARE_STAT : Nat := 0x5018
def TBL_SEQ_PAGE (t : Tower) (i : Nat) : Nat := 0x100000 + 0x80000 * t.val + 8 * i
def TBL_SEQ_DIR (t : Tower) (q : Nat) : Nat := 0x300000 + 0x8000 * t.val + 8 * q

def PWR_MODULE : Nat := powerBase
def PWR_RAIL_STAT : Nat := powerBase + 0x8
def PWR_BUDGET (t : Tower) : Nat := powerBase + 0x100 + 0x40 * t.val
def PWR_EST (t : Tower) : Nat := powerBase + 0x108 + 0x40 * t.val
def PWR_BUBBLE (t : Tower) : Nat := powerBase + 0x110 + 0x40 * t.val
def PWR_PHASE (t : Tower) : Nat := powerBase + 0x118 + 0x40 * t.val
def PWR_VSET (t : Tower) : Nat := powerBase + 0x120 + 0x40 * t.val
def PWR_DROOP (t : Tower) : Nat := powerBase + 0x128 + 0x40 * t.val
def PWR_WEIGHT (i : Nat) : Nat := powerBase + 0x800 + 8 * i
def PWR_LEAK (t : Tower) (j : Nat) : Nat := powerBase + 0xC00 + 0x80 * t.val + 8 * j
def THM_TEMP (t : Tower) : Nat := powerBase + 0x1000 + 0x40 * t.val
def THM_SHADOW (t : Tower) (i : Nat) : Nat := powerBase + 0x1008 + 0x40 * t.val + 8 * i
def THM_LAYER (t : Tower) : Nat := powerBase + 0x1020 + 0x40 * t.val
def THM_COOL (t : Tower) : Nat := powerBase + 0x1028 + 0x40 * t.val
def THM_FC (t : Tower) : Nat := powerBase + 0x1030 + 0x40 * t.val
def THM_STAT (t : Tower) : Nat := powerBase + 0x1038 + 0x40 * t.val
def THM_COOLANT : Nat := powerBase + 0x1100
def THM_CFG : Nat := powerBase + 0x1108
def THM_TRIP : Nat := powerBase + 0x1110
def THM_BOND_CYCLES (t : Tower) : Nat := powerBase + 0x2000 + 8 * t.val

def LNK_CTL (l : LinkIx) : Nat := linkBase l
def LNK_STAT (l : LinkIx) : Nat := linkBase l + 0x08
def LNK_PARTNER (l : LinkIx) : Nat := linkBase l + 0x10
def LNK_PARTNER_CERT (l : LinkIx) : Nat := linkBase l + 0x18
def LNK_ERR_CNT (l : LinkIx) : Nat := linkBase l + 0x20
def LNK_DELAY (l : LinkIx) : Nat := linkBase l + 0x28

def HST_SUBQ : Nat := hostBase + 0x100
def HST_SUBQ_WATCH : Nat := hostBase + 0x108
def HST_SUBQ_CONS : Nat := hostBase + 0x110
def HST_CPLQ : Nat := hostBase + 0x118
def HST_CPLQ_PTR : Nat := hostBase + 0x120
def HST_CMD_STAT : Nat := hostBase + 0x128
def HST_ACCESS_LOG : Nat := hostBase + 0x130
def HST_CX_STAT : Nat := hostBase + 0x200
def HST_CX_EGR : Nat := hostBase + 0x208

def SEC_ID : Nat := secBase
def SEC_FW_STAT : Nat := secBase + 0x08
def SEC_DEBUG : Nat := secBase + 0x10
def SEC_EVTLOG_PTR : Nat := secBase + 0x18
def SEC_EVTLOG_CTL : Nat := secBase + 0x20
def SEC_MGT_STAT : Nat := secBase + 0x28
def SEC_RECOVERY : Nat := secBase + 0x30
def SEC_RECOVERY_LEN : Nat := secBase + 0x38
/-- Word w of record i of the event log window. -/
def SEC_EVTLOG (i w : Nat) : Nat := secBase + 0x10000 + 32 * (i % 4096) + 8 * w

def PMU_CTL : Nat := pmuBase
def PMU_ARM_TICK : Nat := pmuBase + 0x08
def PMU_ARM_CTL : Nat := pmuBase + 0x10
def PMU_SNAP_POS : Nat := pmuBase + 0x18
def PMU_SNAP_POS_HI : Nat := pmuBase + 0x20
def PMU_GCNT (k : Nat) : Nat := pmuBase + 0x100 + 8 * k
def PMU_GSEL (k : Nat) : Nat := pmuBase + 0x140 + 8 * k
def PMU_GOVF : Nat := pmuBase + 0x180
def PMU_GCNT_SHADOW (k : Nat) : Nat := pmuBase + 0x200 + 8 * k
def PMU_GOVF_SHADOW : Nat := pmuBase + 0x240

def CORE_ID (p : PCore) : Nat := coreBase p
def CORE_STAT (p : PCore) : Nat := coreBase p + 0x08
def CORE_START (p : PCore) : Nat := coreBase p + 0x10
def CORE_PWR (p : PCore) : Nat := coreBase p + 0x18
def CORE_EVT_STAT (p : PCore) : Nat := coreBase p + 0x100
def CORE_NUM_FLAGS (p : PCore) : Nat := coreBase p + 0x200
def CORE_NUM_EVENT_EN (p : PCore) : Nat := coreBase p + 0x208
def CORE_SR_SEED0 (p : PCore) : Nat := coreBase p + 0x210
def CORE_SR_SEED1 (p : PCore) : Nat := coreBase p + 0x218
def CORE_ARR_STAT (p : PCore) (a : Nat) : Nat := coreBase p + 0x300 + 8 * a
def THM_CORE (p : PCore) : Nat := coreBase p + 0x400

def VLT_CFG (p : PCore) : Nat := vaultBase p
def VLT_ERR_CNT (p : PCore) : Nat := vaultBase p + 0x08
def VLT_SCRUB_STAT (p : PCore) : Nat := vaultBase p + 0x10
def VLT_LOG_STAT (p : PCore) : Nat := vaultBase p + 0x18
def VLT_VCH_SPARE (p : PCore) (k : Nat) : Nat := vaultBase p + 0x100 + 8 * k
def VLT_VCH_STAT (p : PCore) : Nat := vaultBase p + 0x110
def VLT_CE_LOG (p : PCore) (i : Nat) : Nat := vaultBase p + 0x200 + 8 * i
def VLT_REMAP (p : PCore) (e : Nat) : Nat := vaultBase p + 0x300 + 8 * e
def VLT_TEST_CTL (p : PCore) : Nat := vaultBase p + 0x400
def VLT_TEST_DATA (p : PCore) (k : Nat) : Nat := vaultBase p + 0x408 + 8 * k
def VLT_TEST_META (p : PCore) : Nat := vaultBase p + 0x428
def THM_SLICE (p : PCore) (k : Nat) : Nat := vaultBase p + 0x500 + 8 * k
def VLT_FILL (p : PCore) : Nat := vaultBase p + 0x600

def IB_CFG (p : PCore) : Nat := ibBase p
def IB_STAT (p : PCore) : Nat := ibBase p + 0x08
def IB_ERR_CNT (p : PCore) : Nat := ibBase p + 0x10
def IB_LOG_STAT (p : PCore) : Nat := ibBase p + 0x18
def IB_TAB_VALID (p : PCore) : Nat := ibBase p + 0x20
def IB_KV_CFG (p : PCore) : Nat := ibBase p + 0x28
def IB_KV_TOK (p : PCore) : Nat := ibBase p + 0x30
def IB_LOG (p : PCore) (i : Nat) : Nat := ibBase p + 0x200 + 8 * i
/-- The 64-bit register w of the window of activation table k. -/
def IB_TAB (p : PCore) (k w : Nat) : Nat := ibBase p + 0x8000 + 0x800 * k + 8 * w

def PMU_CORE_CTL (p : PCore) : Nat := countBase p
def PMU_FIXED (p : PCore) (i : Nat) : Nat := countBase p + 0x100 + 8 * i
def PMU_PROG (p : PCore) (k : Nat) : Nat := countBase p + 0x200 + 8 * k
def PMU_SEL (p : PCore) (k : Nat) : Nat := countBase p + 0x280 + 8 * k
def PMU_OVF (p : PCore) : Nat := countBase p + 0x300
def PMU_FIXED_SHADOW (p : PCore) (i : Nat) : Nat := countBase p + 0x500 + 8 * i
def PMU_PROG_SHADOW (p : PCore) (k : Nat) : Nat := countBase p + 0x600 + 8 * k
def PMU_OVF_SHADOW (p : PCore) : Nat := countBase p + 0x700
def PMU_SAMPLE_CTL (p : PCore) : Nat := countBase p + 0x800
def PMU_SAMPLE_PTR (p : PCore) : Nat := countBase p + 0x808
def PMU_SAMPLE_STAT (p : PCore) : Nat := countBase p + 0x810
/-- Word w of record i of the sample buffer. -/
def PMU_SAMPLES (p : PCore) (i w : Nat) : Nat := countBase p + 0x8000 + 32 * (i % 256) + 8 * w

end Reg

/-! ### The tables, one per block; first is an offset within the block -/

/-- Global control (R3): TBL_ registers. -/
def globalRows : List RegRow :=
  [{ first := 0x1000, n1 := 4 },
   { first := 0x1020, n1 := 4, w1c := [(9, 0)] },
   { first := 0x2000, n1 := 32 },
   { first := 0x3000 }, { first := 0x3008 }, { first := 0x3010 }, { first := 0x3018 },
   { first := 0x3020 }, { first := 0x3028 }, { first := 0x3030 }, { first := 0x3038 },
   { first := 0x3040, rw := [(7, 0)], reset := 3 },
   { first := 0x3048, reset := 0xFFFFFF },
   { first := 0x3100, rw := [(63, 16), (2, 1)] },
   { first := 0x3108, reset := 0xFFFC }] ++
  [{ first := 0x4000, n1 := 4, s1 := 0x40 },
   { first := 0x4008, n1 := 4, s1 := 0x40, w1c := [(3, 0)] },
   { first := 0x4010, n1 := 4, s1 := 0x40 },
   { first := 0x4018, n1 := 4, s1 := 0x40 },
   { first := 0x4020, n1 := 4, s1 := 0x40 },
   { first := 0x5000, reset := 1 },
   { first := 0x5008, rw := [(7, 6)], w1s := [(4, 0)] },
   { first := 0x5010, rw := [(55, 48), (40, 40), (8, 0)], w1c := [(62, 61)], reset := 0x10001FF0000 },
   { first := 0x5018 },
   { first := 0x100000, n1 := 262144, rw := [(31, 30), (19, 0)] },
   { first := 0x300000, n1 := 16384, rw := [(63, 63), (47, 32), (15, 0)] }]

/-- Power and thermal: PWR_ and THM_ registers. -/
def powerRows : List RegRow :=
  [{ first := 0x0, reset := 0x500_0000_3200 },
   { first := 0x8 },
   { first := 0x100, n1 := 4, s1 := 0x40, rw := [(15, 0)], reset := 0xB40_0000_0B40 },
   { first := 0x108, n1 := 4, s1 := 0x40 },
   { first := 0x110, n1 := 4, s1 := 0x40, rw := [(37, 32)] },
   { first := 0x118, n1 := 4, s1 := 0x40, w1c := [(21, 0)] },
   { first := 0x120, n1 := 4, s1 := 0x40, rw := [(23, 16)], reset := 0xC0000 },
   { first := 0x128, n1 := 4, s1 := 0x40, rw := [(63, 32)], reset := 1 },
   { first := 0x800, n1 := 12 },
   { first := 0xC00, n1 := 64 }] ++
  [{ first := 0x1000, n1 := 4, s1 := 0x40, reset := 0x8000_8000_8000_8000 },
   { first := 0x1008, n1 := 4, s1 := 0x40, reset := 0x8000_8000_8000_8000 },
   { first := 0x1010, n1 := 4, s1 := 0x40, reset := 0x8000_8000_8000_8000 },
   { first := 0x1018, n1 := 4, s1 := 0x40, reset := 0x8000_8000_8000 },
   { first := 0x1020, n1 := 4, s1 := 0x40 },
   { first := 0x1028, n1 := 4, s1 := 0x40, rw := [(31, 16)] },
   { first := 0x1030, n1 := 4, s1 := 0x40, reset := 0x8000_8000_0000 },
   { first := 0x1038, n1 := 4, s1 := 0x40, w1c := [(2, 2)] },
   { first := 0x1100, rw := [(47, 0)], reset := 0x80008000 },
   { first := 0x1108, rw := [(15, 8), (0, 0)], reset := 0x50_0028_3C01 },
   { first := 0x1110, reset := 0x8000 },
   { first := 0x2000, n1 := 4 }]

/-- One link: LNK_ registers. -/
def linkRows : List RegRow :=
  [{ first := 0x0, rw := [(31, 16), (5, 4), (2, 2), (0, 0)], w1s := [(3, 3)], reset := 0x400025 },
   { first := 0x8, reset := 1 },
   { first := 0x10, reset := 0xFFFF0000 },
   { first := 0x18 },
   { first := 0x20, rw := [(63, 0)] },
   { first := 0x28 }]

/-- Host interfaces: HST_ registers. -/
def hostRows : List RegRow :=
  [{ first := 0x100, rw := [(63, 12), (5, 0)], reset := 6 },
   { first := 0x108, rw := [(63, 6)] },
   { first := 0x110 },
   { first := 0x118, rw := [(63, 6), (4, 0)], reset := 6 },
   { first := 0x120, rw := [(31, 0)] },
   { first := 0x128, rw := [(63, 0)] },
   { first := 0x130 },
   { first := 0x200, rw := [(63, 32)] },
   { first := 0x208, rw := [(63, 63), (47, 40), (36, 0)], reset := 0x40000000 }]

/-- Management and security mailbox: SEC_ registers. -/
def secRows : List RegRow :=
  [{ first := 0x0 }, { first := 0x8 }, { first := 0x10 },
   { first := 0x18, rw := [(31, 0)] },
   { first := 0x20, rw := [(63, 32), (11, 8), (0, 0)] },
   { first := 0x28, rw := [(63, 32)] },
   { first := 0x30, rw := [(63, 0)] },
   { first := 0x38, rw := [(31, 0)], w1s := [(63, 63)] },
   { first := 0x10000, n1 := 16384, readOnlyLogged := true }]

/-- Global performance monitor: PMU_ registers of the module. -/
def pmuRows : List RegRow :=
  [{ first := 0x0, rw := [(1, 0)], reset := 1 },
   { first := 0x8, rw := [(63, 0)] },
   { first := 0x10, rw := [(1, 0)], w1c := [(7, 6)], w1s := [(4, 4)] },
   { first := 0x18 }, { first := 0x20 },
   { first := 0x100, n1 := 8, rw := [(47, 0)] },
   { first := 0x140, n1 := 8, rw := [(63, 63), (23, 0)] },
   { first := 0x180, w1c := [(7, 0)] },
   { first := 0x200, n1 := 8 },
   { first := 0x240 }]

/-- Core control: CORE_ registers and THM_CORE. -/
def coreRows : List RegRow :=
  [{ first := 0x0 }, { first := 0x8 },
   { first := 0x10, rw := [(12, 0)] },
   { first := 0x18, rw := [(1, 0)], reset := 0x22 },
   { first := 0x100 },
   { first := 0x200, w1c := [(29, 6), (4, 0)] },
   { first := 0x208, rw := [(4, 1)], reset := 0x1B },
   { first := 0x210 }, { first := 0x218 },
   { first := 0x300, n1 := 6 },
   { first := 0x400, reset := 0x8000_8000_8000 }]

/-- Vault controller: VLT_ registers and THM_SLICE0, THM_SLICE1. -/
def vaultRows : List RegRow :=
  [{ first := 0x0, rw := [(39, 32), (23, 8), (1, 0)], reset := 0x10001 },
   { first := 0x8, rw := [(63, 0)] },
   { first := 0x10 }, { first := 0x18 },
   { first := 0x100 }, { first := 0x108 }, { first := 0x110 },
   { first := 0x200, n1 := 16 },
   { first := 0x300, n1 := 8 },
   { first := 0x400, rw := [(56, 32), (2, 2)], reset := 0xC000 },
   { first := 0x408, n1 := 4, rw := [(63, 0)] },
   { first := 0x428, rw := [(31, 0)] },
   { first := 0x500, n1 := 2, reset := 0x8000_8000_8000_8000 },
   { first := 0x600, rw := [(63, 48), (0, 0)] }]

/-- In-bank control: IB_ registers; bytes 1,056 to 2,047 of a table window are RSV. -/
def ibRows : List RegRow :=
  [{ first := 0x0, rw := [(31, 16)], reset := 0x1000000 },
   { first := 0x8 },
   { first := 0x10, rw := [(63, 0)] },
   { first := 0x18 },
   { first := 0x20, rw := [(15, 0)] },
   { first := 0x28, rw := [(63, 16), (0, 0)] },
   { first := 0x30, rw := [(31, 0)] },
   { first := 0x200, n1 := 16 },
   { first := 0x8000, n1 := 132, n2 := 16, s2 := 0x800, rw := [(63, 0)] },
   { first := 0x8420, n1 := 124, n2 := 16, s2 := 0x800 }]

/-- Counters: PMU_ registers of a core. -/
def countRows : List RegRow :=
  [{ first := 0x0, rw := [(0, 0)], reset := 1 },
   { first := 0x100, n1 := 16, rw := [(47, 0)] },
   { first := 0x200, n1 := 8, rw := [(47, 0)] },
   { first := 0x280, n1 := 8, rw := [(63, 62), (23, 0)] },
   { first := 0x300, w1c := [(24, 0)] },
   { first := 0x500, n1 := 16 },
   { first := 0x600, n1 := 8 },
   { first := 0x700 },
   { first := 0x800, rw := [(62, 50), (47, 0)], reset := 0x4000_0000_0000_0000 },
   { first := 0x808, rw := [(31, 0)] },
   { first := 0x810, rw := [(63, 16)] },
   { first := 0x8000, n1 := 1024, readOnlyLogged := true }]

/-- The table and the offset within its block that a control address names; no block gives the empty table (R3). -/
def blockOf (a : Nat) : List RegRow × Nat :=
  if a < 0x01000000 then (globalRows, a)
  else if a < 0x02000000 then (powerRows, a - 0x01000000)
  else if a < 0x02300000 then (linkRows, (a - 0x02000000) % 0x10000)
  else if a < 0x03000000 then ([], 0)
  else if a < 0x04000000 then (hostRows, a - 0x03000000)
  else if a < 0x05000000 then (secRows, a - 0x04000000)
  else if a < 0x06000000 then (pmuRows, a - 0x05000000)
  else if a < 0x100000000 then ([], 0)
  else if a < 0x100000000 + 272 * 0x100000 then
    let o := (a - 0x100000000) % 0x100000
    if o < 0x10000 then (coreRows, o)
    else if o < 0x20000 then (vaultRows, o - 0x10000)
    else if o < 0x30000 then (ibRows, o - 0x20000)
    else if o < 0x40000 then (countRows, o - 0x30000)
    else ([], 0)
  else ([], 0)

/-- The row of the register at a control address; none where no register is defined (R3). -/
def regRow (a : Nat) : Option RegRow := (blockOf a).1.find? fun r => r.covers (blockOf a).2

/-- The hand-store window of a physical core, and the byte offset in it, that a control address lies in (R3, R77). -/
def handWindow (a : Nat) : Option (PCore × Nat) :=
  if h : 0x100000000 ≤ a ∧ (a - 0x100000000) / 0x100000 < 272 then
    let o := (a - 0x100000000) % 0x100000
    if 0x40000 ≤ o ∧ o < 0x80000 then some (⟨(a - 0x100000000) / 0x100000, h.2⟩, o - 0x40000) else none
  else none

/-- The fields of CORE_ID that a core's position fixes: stepping, tower, die, position and index (04_core_model.md
CORE_ID, reset "physical"). -/
def coreIdPhysical (p : Nat) : W64 :=
  BitVec.ofNat 64 (0xB0 * 2 ^ 32 + p / 68 * 2 ^ 16 + p / 34 % 2 * 2 ^ 15 + p % 34 * 2 ^ 9 + p)

/-- What the register at a control address holds after power-on reset (R8). -/
def resetOf (a : Nat) : W64 :=
  if 0x100000000 ≤ a ∧ a < 0x100000000 + 272 * 0x100000 ∧ (a - 0x100000000) % 0x100000 = 0 then coreIdPhysical ((a - 0x100000000) / 0x100000)
  else match regRow a with
    | some r => BitVec.ofNat 64 r.reset
    | none => 0

/-- The effect of a host write of `v` under the access types of R5: RW bits take the value, W1C bits written 1 clear,
W1S bits written 1 set, all other bits stay. -/
def RegRow.write (r : RegRow) (old v : W64) : W64 :=
  let rw := rangesMask r.rw
  (((old &&& ~~~ rw) ||| (v &&& rw)) &&& ~~~ (v &&& rangesMask r.w1c)) ||| (v &&& rangesMask r.w1s)

end Sys2Proof.Machine
end

