-- ==== Sys2Proof/Machine/State.lean ====
section
/-! DEFINITION. The state of the module: plain data, holding every register, buffer, queue and memory that the spec gives
it, and the queue of the commands that wait. -/

namespace Sys2Proof.Machine

/-- Why a command stops as a fault. No command of this module does: every event the spec describes is taken (safe). -/
inductive Fault where
  deriving DecidableEq, Repr

/-- Why a command is refused. -/
inductive Refusal where
  /-- The command has no meaning in this model yet; raised by its arm of `exec` alone (safe). -/
  | notModelled (mnemonic : String)
  deriving DecidableEq, Repr

/-- A physical core with its queues and its vault. -/
structure Core where
  regs : RegFile
  /-- the registers as the bundle being issued reads them (R71) -/
  src : RegFile
  /-- the bundle issued last, and those of its instructions that have yet to take effect, in slot order (R71, R73): slot
  and slot word -/
  bundle : BitVec 13
  due : List (Nat × W64)
  /-- index of the next bundle; 8,192 once sequential flow has passed 8,191 (R72) -/
  next : Nat
  /-- CORE_START as latched for the current rubber (R78) -/
  start : BitVec 13
  /-- snapshots kept, newest first: rubber number, latched start, registers (R78, R90, R252) -/
  snaps : List (BitVec 40 × BitVec 13 × Snapshot)
  /-- REND has issued in this rubber (R115) -/
  ended : Bool
  waiting : Option Waiting
  /-- the trick in which the bundle at the next index became ready, once it has (05 "Synchronisation") -/
  readySince : Option (BitVec 24)
  /-- cycles without issue still owed to a taken transfer (R75) -/
  owed : Nat
  /-- events waiting to leave, oldest first (R94); records lost since the last that entered -/
  events : List Record
  lostNext : Nat
  /-- sinks of this rubber, and whether their record is still in the buffer (R89) -/
  sinks : Nat
  sinkHeld : Bool
  /-- requests on their way to the tower gateway, oldest first, each with the tick of its detection (R95, R250) -/
  requests : List (Record × W64)
  scratch : Memory
  scratchPoison : Tab Bool
  hand : Memory
  arrays : Vector Arr 6
  xq : List Xfer
  /-- the other holders of transfer-queue entries, in issue order (R141, R447) -/
  ports : List PortHold
  /-- MDRN commands issued in this rubber (log entry 23) -/
  drains : Nat
  /-- release-table entries used in this trick (R145) -/
  used : List Nat
  vault : Vault
  ib : InBank
  /-- slots retired by the bundle of the current cycle, when one issued (R421) -/
  slotMask : Option (BitVec 4)
  /-- countdown to the next tag, and the tagged instruction in flight (R428) -/
  countdown : Nat
  sample : Option Sample
  deriving DecidableEq, Repr

/-- A core after reset: registers zero (log entry 2), memories unwritten (log entry 3), everything empty. -/
def Core.reset : Core :=
  { regs := RegFile.zero, src := RegFile.zero, bundle := 0, due := [], next := 0, start := 0, snaps := [],
    ended := false, waiting := none, readySince := none, owed := 0, events := [], lostNext := 0, sinks := 0,
    sinkHeld := false, requests := [], scratch := [],
    scratchPoison := [], hand := [], arrays := Vector.replicate 6 Arr.reset, xq := [], ports := [], drains := 0,
    used := [], vault := Vault.reset, ib := InBank.reset,
    slotMask := none, countdown := 0, sample := none }

/-- An increment of a counter: its register and field, the amount, and the register and bit that tell of its wrap; none for
one that saturates (R199, R424). -/
structure Bump where
  reg : Nat
  hi : Nat
  lo : Nat
  n : Nat
  ovf : Option (Nat × Nat)
  deriving DecidableEq, Repr

/-- The module. -/
structure State where
  /-- the commands that wait, first in, first out -/
  pending : List Instr
  /-- the control registers, by control address (R3); an unlisted one holds its reset value -/
  regs : Tab W64
  cores : Vector Core 272
  seat : Seat
  engines : Vector Engine 4
  links : Vector Link 48
  host : HostPort
  crix : Crix
  power : Vector TowerPower 4
  heat : Vector TowerHeat 4
  boot : Boot
  sec : Sec
  /-- event records on their way to the hub's log, in order of arrival (R94, R418) -/
  hubQueue : List Record
  /-- what the module has sent on its ports, newest first (the model's own record of outputs) -/
  sent : List Sent
  /-- bits of this cycle that a later event of the same cycle may not undo: W1C bits that hardware has set (R6), W1S bits
  that were 1 and have been written 1 (R7), by control address -/
  guarded : Tab W64
  /-- increments of counters in this cycle, in order: a host write of the same cycle comes before them (R199, R424) -/
  added : List Bump
  /-- free values drawn so far (the model's own count; log entries 22 and 23) -/
  draws : Nat
  deriving DecidableEq, Repr

/-- The module right after power-on reset. -/
def State.reset : State :=
  { pending := [], regs := [], cores := Vector.replicate 272 Core.reset, seat := Seat.reset,
    engines := Vector.replicate 4 Engine.reset, links := Vector.replicate 48 Link.reset, host := HostPort.reset,
    crix := Crix.reset, power := Vector.replicate 4 TowerPower.reset, heat := Vector.replicate 4 TowerHeat.reset,
    boot := Boot.reset, sec := Sec.reset, hubQueue := [], sent := [], guarded := [], added := [], draws := 0 }

end Sys2Proof.Machine
end

