-- ==== Sys2Proof/Machine/Ops.lean ====
section
/-! DEFINITION. The named operations over the state that every family uses: control registers, cores, event records and
requests (04 R92 to R95), performance counting (19), scratch (04 R79, R86), what the issue of an instruction counts
(19 R421, R423, R428). -/

namespace Sys2Proof.Machine

/-! ### Control registers -/

/-- The value of a control register. -/
def State.reg (s : State) (a : Nat) : W64 := Tab.get (resetOf a) s.regs a

/-- The state with a control register set. -/
def State.setReg (s : State) (a : Nat) (v : W64) : State := { s with regs := Tab.put (resetOf a) s.regs a v }

/-- The field [hi:lo] of a control register. -/
def State.rd (s : State) (a hi lo : Nat) : Nat := fld (s.reg a) hi lo

/-- The state with the field [hi:lo] of a control register set. -/
def State.wr (s : State) (a hi lo v : Nat) : State := s.setReg a (setFld (s.reg a) hi lo v)

/-- The bits of a register that R6 and R7 protect in the present cycle. -/
def State.guardedAt (s : State) (a : Nat) : W64 := Tab.get 0 s.guarded a

/-- Bits of a register are protected for the rest of the cycle. -/
def State.protect (s : State) (a : Nat) (m : W64) : State := { s with guarded := Tab.put 0 s.guarded a (s.guardedAt a ||| m) }

/-- Bits of a control register set, as hardware sets flags: a clear in the same cycle does not undo them (R6). -/
def State.orReg (s : State) (a : Nat) (m : W64) : State := (s.setReg a (s.reg a ||| m)).protect a m

/-- One bit set by hardware. -/
def State.flag (s : State) (a i : Nat) : State := s.orReg a (fldMask 64 i i)

/-- A counter raised: one that saturates (R199), or one that wraps and sets its sticky bit (R424). -/
def State.addTo (s : State) (b : Bump) : State :=
  let v := s.rd b.reg b.hi b.lo + b.n
  match b.ovf with
  | none => s.wr b.reg b.hi b.lo (min v (2 ^ (b.hi + 1 - b.lo) - 1))
  | some o => if v < 2 ^ (b.hi + 1 - b.lo) then s.wr b.reg b.hi b.lo v else (s.wr b.reg b.hi b.lo v).flag o.1 o.2

/-- A counter raised in this cycle. -/
def State.bump (s : State) (b : Bump) : State := { s.addTo b with added := s.added ++ [b] }

/-- The field [hi:lo] of a control register raised by n, saturating (R199). -/
def State.count (s : State) (a hi lo n : Nat) : State := s.bump ⟨a, hi, lo, n, none⟩

/-- An action that a W1S bit asks for has completed: the bit clears, unless it was written 1 again in the same cycle, which
starts the action once more (R7); whether it does is the second component. -/
def State.doneW1S (s : State) (a i : Nat) : State × Bool :=
  if bit (s.guardedAt a) i then ({ s with guarded := Tab.put 0 s.guarded a (s.guardedAt a &&& ~~~ fldMask 64 i i) }, true)
  else (s.wr a i i 0, false)

/-- Turelink is up (R316). -/
def State.tlUp (s : State) : Bool := s.host.lanes != 0

/-! ### Cores -/

/-- A physical core. -/
def State.core (s : State) (p : PCore) : Core := s.cores[p.val]

/-- The state with a physical core replaced. -/
def State.setCore (s : State) (p : PCore) (c : Core) : State := { s with cores := s.cores.set p.val c }

/-- A free value has been drawn: the next draw is another one. -/
def State.draw (s : State) : State := { s with draws := s.draws + 1 }

/-- CORE_STAT.STATE. -/
def State.coreState (s : State) (p : PCore) : Nat := s.rd (Reg.CORE_STAT p) 3 0

/-- The codes of CORE_STAT.STATE (04, CORE_STAT). -/
abbrev CS_OFF : Nat := 0
abbrev CS_STOPPED : Nat := 1
abbrev CS_RUNNING : Nat := 2
abbrev CS_HELD : Nat := 3
abbrev CS_FAULTED : Nat := 4
abbrev CS_SPARE : Nat := 5
abbrev CS_RETIRED : Nat := 6

/-- CORE_STAT.STATE set. Checker test mode ends where it leaves STOPPED, FAULTED, SPARE and RETIRED (R193). -/
def State.setCoreState (s : State) (p : PCore) (st : Nat) : State :=
  let s := s.wr (Reg.CORE_STAT p) 3 0 st
  if st = CS_OFF ∨ st = CS_RUNNING ∨ st = CS_HELD then s.wr (Reg.VLT_TEST_CTL p) 2 2 0 else s

/-- The codes of TBL_STAT.STATE (R269). -/
abbrev TS_EMPTY : Nat := 0
abbrev TS_LOADING : Nat := 1
abbrev TS_LOADED : Nat := 2
abbrev TS_RUNNING : Nat := 3
abbrev TS_HELD : Nat := 4
abbrev TS_STOPPED : Nat := 5
abbrev TS_STEPPING : Nat := 6

/-- TBL_STAT.STATE. -/
def State.tblState (s : State) : Nat := s.rd Reg.TBL_STAT 3 0

/-- TBL_RUN.RUBBER, the rubber number (R69, R272). -/
def State.rubber (s : State) : Nat := s.rd Reg.TBL_RUN 39 0

/-- The trick tag, rubber number x 2^24 + trick index (R53, R93, R110). -/
def State.tag (s : State) : W64 := BitVec.ofNat 64 (s.rubber * 2 ^ 24 + s.seat.trick.toNat)

/-- The logical core that a physical core serves (CORE_ID.LCORE). -/
def State.lcoreOf (s : State) (p : PCore) : Nat := s.rd (Reg.CORE_ID p) 31 24

/-- The tower and die of a physical core (00_scope.md "Names and indices"). -/
def towerOf (p : PCore) : Tower := ⟨p.val / 68, by omega⟩

/-- The die of a physical core, 2 x tower + die. -/
def dieOf (p : PCore) : Die := ⟨p.val / 34, by omega⟩

/-- The map byte of a logical core (R96): entry c mod 32 of the map of its die. -/
def State.mapByte (s : State) (c : Nat) : Nat :=
  let d : Die := ⟨c % 256 / 32, by omega⟩
  s.rd (Reg.TBL_CORE_MAP d (c % 32 / 8)) (8 * (c % 8) + 7) (8 * (c % 8))

/-- The physical core that serves a logical core, when its map entry is valid (R96, R99). -/
def State.physOf (s : State) (c : Nat) : Option PCore :=
  let b := s.mapByte c
  let p := c % 256 / 32 * 34 + b % 64
  if b / 128 % 2 = 1 then (if h : p < 272 then some ⟨p, h⟩ else none) else none

/-! ### Performance counting (19) -/

/-- A 48-bit counter raised by n, with its sticky bit when it wraps (R424). -/
def State.tally (s : State) (a ovf k n : Nat) : State := s.bump ⟨a, 47, 0, n, some (ovf, k)⟩

/-- The module's counters may count: PMU_CTL.EN is 1 and they are not frozen (R420). -/
def State.pmuOn (s : State) : Bool := s.rd Reg.PMU_CTL 0 0 == 1 && s.rd Reg.PMU_CTL 1 1 == 0

/-- A core's counters may count: the core is enabled and ON (R420). -/
def State.pmuCoreOn (s : State) (p : PCore) : Bool :=
  s.pmuOn && s.rd (Reg.PMU_CORE_CTL p) 0 0 == 1 && s.rd (Reg.CORE_PWR p) 5 4 == 0

/-- A fixed counter of a core (R420, R422). -/
def State.fixed (s : State) (p : PCore) (i n : Nat) : State :=
  if s.pmuCoreOn p && s.coreState p == CS_RUNNING then s.tally (Reg.PMU_FIXED p i) (Reg.PMU_OVF p) i n else s

/-- An event of a core, counted by the programmable counters that select it (R423); `n` gives the occurrences that a
QUAL field lets count. -/
def State.pmu (s : State) (p : PCore) (evt : Nat) (n : Nat → Nat) : State :=
  if s.pmuCoreOn p then
    (List.range 8).foldl (fun s k =>
      let sel := s.reg (Reg.PMU_SEL p k)
      if bit sel 63 && fld sel 7 0 == evt && (!bit sel 62 || s.coreState p == CS_RUNNING) && n (fld sel 23 8) != 0 then
        s.tally (Reg.PMU_PROG p k) (Reg.PMU_OVF p) (16 + k) (n (fld sel 23 8))
      else s) s
  else s

/-- An event of the module, counted by the global counters that select it (R423). -/
def State.gpmu (s : State) (evt : Nat) (n : Nat → Nat) : State :=
  if s.pmuOn then
    (List.range 8).foldl (fun s k =>
      let sel := s.reg (Reg.PMU_GSEL k)
      if bit sel 63 && fld sel 7 0 == evt && n (fld sel 23 8) != 0 then
        s.tally (Reg.PMU_GCNT k) Reg.PMU_GOVF k (n (fld sel 23 8))
      else s) s
  else s

/-! ### Activity and scratch counts (R350, R423) -/

/-- A tower's supervisor in the power governor. -/
def State.towerPower (s : State) (t : Tower) : TowerPower := s.power[t.val]

/-- The state with a tower's supervisor replaced. -/
def State.setPower (s : State) (t : Tower) (x : TowerPower) : State := { s with power := s.power.set t.val x }

/-- Activity i of a core's tower counted n times in the present governor window (R350). -/
def State.activity (s : State) (p : PCore) (i : Fin 12) (n : Nat) : State :=
  let x := s.towerPower (towerOf p)
  s.setPower (towerOf p) { x with counts := x.counts.set i.val (x.counts[i.val] + n) }

/-- Words of scratch accessed by a slot of the issuing bundle (R350 class 10, R423 event 0x38). -/
def State.scratched (s : State) (p : PCore) (slot n : Nat) : State :=
  (s.pmu p 0x38 (fun q => q / 2 ^ slot % 2 * n)).activity p 10 n

/-! ### Event records and requests (R92 to R95) -/

/-- Requests, by their REQ code (R93). -/
abbrev REQ_NONE : Nat := 0
abbrev REQ_REPLAY : Nat := 1
abbrev REQ_HOLD : Nat := 2
abbrev REQ_STOP : Nat := 3

/-- A deal is in progress (R269): it runs, is held or steps its clock. -/
def State.dealRuns (s : State) : Bool := s.tblState == TS_RUNNING || s.tblState == TS_HELD || s.tblState == TS_STEPPING

/-- A record of a core at the present position of the schedule (R93); TAG and TCYCLE are zero while no deal is in progress
(R300, log entry 20). -/
def State.coreRecord (s : State) (p : PCore) (code : Nat) (arg : W64) (req slot : Nat) (bundle : BitVec 13) : Record :=
  let on := s.dealRuns
  { tag := if on then s.tag else 0, tcycle := if on then s.seat.cycle else 0, lcore := BitVec.ofNat 8 (s.lcoreOf p),
    pcore := BitVec.ofNat 9 p.val, req := BitVec.ofNat 2 req, slot := BitVec.ofNat 2 slot, code := BitVec.ofNat 8 code,
    arg, lost := 0, bundle }

/-- A record enters the core's event buffer, or is dropped and counted when the buffer is full (R94). -/
def State.pushRecord (s : State) (p : PCore) (r : Record) : State :=
  let c := s.core p
  if c.events.length ≥ 16 then
    (s.count (Reg.CORE_EVT_STAT p) 63 32 1).setCore p { c with lostNext := satAdd 16 c.lostNext 1 }
  else
    (s.wr (Reg.CORE_EVT_STAT p) 4 0 (c.events.length + 1)).setCore p
      { c with events := c.events ++ [{ r with lost := BitVec.ofNat 16 c.lostNext }], lostNext := 0 }

/-- A request is latched in CORE_STAT, whether or not its record was dropped (R92, R95): the request bit, REQ_CODE, and
FAULTED after a stop; each request goes on its own to the tower gateway, with the tick of its detection (R249, R250). -/
def State.request (s : State) (p : PCore) (r : Record) : State :=
  let req := r.req.toNat
  if req = 0 then s
  else
    let s := (s.wr (Reg.CORE_STAT p) (28 + req) (28 + req) 1).wr (Reg.CORE_STAT p) 47 40 r.code.toNat
    let s := if req = REQ_STOP ∧ s.coreState p = CS_RUNNING then s.setCoreState p CS_FAULTED else s
    s.setCore p { s.core p with requests := (s.core p).requests ++ [(r, s.reg Reg.TBL_TIME)] }

/-- A core raises an event naming a bundle: its record is buffered and its request latched. -/
def State.raiseAt (s : State) (p : PCore) (code : Nat) (arg : W64) (req slot : Nat) (bundle : BitVec 13) : State :=
  let r := s.coreRecord p code arg req slot bundle
  (s.pushRecord p r).request p r

/-- A core raises an event of the bundle it is issuing. -/
def State.raise (s : State) (p : PCore) (code : Nat) (arg : W64) (req slot : Nat) : State :=
  s.raiseAt p code arg req slot (s.core p).bundle

/-- CORE_ADDRESS: the address in [61:0] and the space code in [63:62] (R79, R93). -/
def State.coreAddress (s : State) (p : PCore) (space : Nat) (addr : W64) (slot : Nat) : State :=
  s.raise p 0x39 (setFld addr 63 62 space) REQ_STOP slot

/-- The count of sinks goes into the youngest sink record of a buffer (R89). -/
def bumpSink (n : Nat) : List Record → List Record
  | [] => []
  | r :: rs =>
    if r.code = 0x14 ∧ rs.all (fun x => x.code != 0x14) = true then { r with arg := setFld r.arg 63 8 n } :: rs
    else r :: bumpSink n rs

/-- A poison sink of a kind (R88, R89): the first of a rubber raises MEM_POISON_SINK with a replay request; a later one
is only counted, in that rubber's record while it waits. -/
def State.sinkAt (s : State) (p : PCore) (kind slot : Nat) (bundle : BitVec 13) : State :=
  let c := s.core p
  let n := c.sinks + 1
  let s := (s.setCore p { c with sinks := n, sinkHeld := if c.sinks = 0 then decide (c.events.length < 16) else c.sinkHeld }).pmu
    p 0x39 (fun _ => 1)
  if c.sinks = 0 then s.raiseAt p 0x14 (BitVec.ofNat 64 (256 + kind)) REQ_REPLAY slot bundle
  else if c.sinkHeld then
    let c := s.core p
    s.setCore p { c with events := bumpSink n c.events }
  else s

/-- A poison sink of the bundle being issued. -/
def State.sink (s : State) (p : PCore) (kind slot : Nat) : State := s.sinkAt p kind slot (s.core p).bundle

/-! ### Scratch (R79, R86) -/

/-- Bytes of scratch. -/
abbrev scratchSize : Nat := 0x300000

/-- An access of n bytes lies in scratch and is naturally aligned (R79). -/
def scratchOk (a n : Nat) : Bool := decide (a % n = 0) && decide (a + n ≤ scratchSize)

/-- The poison tag of the 256-bit scratch word that holds a byte. -/
def Core.scratchTag (c : Core) (a : Nat) : Bool := Tab.get false c.scratchPoison (a / 32)

/-- A byte range of scratch holds a poisoned word. -/
def Core.scratchTainted (c : Core) (a n : Nat) : Bool :=
  (List.range ((a + n + 31) / 32 - a / 32)).any fun i => c.scratchTag (a + 32 * i)

/-- A core with the tag of one scratch word set. -/
def Core.setTag (c : Core) (a : Nat) (x : Bool) : Core :=
  { c with scratchPoison := Tab.put false c.scratchPoison (a / 32) x }

/-- A core with the tags of every scratch word of a range set. -/
def Core.taint (c : Core) (a n : Nat) : Core :=
  (List.range ((a + n + 31) / 32 - a / 32)).foldl (fun c i => c.setTag (a + 32 * i) true) c

/-- One whole scratch word written with its tag (R86). -/
def Core.writeWord (c : Core) (a : Nat) (data : BitVec 256) (tag : Bool) : Core :=
  { c with scratch := c.scratch.storeNum a 32 data.toNat }.setTag a tag

/-- Bytes written to scratch within one word, from data that is poisoned or clean: a clean partial write leaves the tag,
a clean whole write clears it, poisoned data sets it (R86). -/
def Core.writePart (c : Core) (a : Nat) (bytes : List Byte) (poison : Bool) : Core :=
  let c := { c with scratch := c.scratch.store a bytes }
  if poison then c.setTag a true else if bytes.length = 32 then c.setTag a false else c

/-- The word of scratch at an address, with its tag. -/
def Core.readWord (c : Core) (a : Nat) : BitVec 256 × Bool := (BitVec.ofNat 256 (c.scratch.num a 32), c.scratchTag a)

/-! ### Vector and scalar registers -/

/-- A scalar register as read: s0 reads zero (R67). -/
def RegFile.sGet (r : RegFile) (i : SReg) : W64 := if i = 0 then 0 else r.s[i.val]

/-- The poison tag of a scalar register; s0 carries none. -/
def RegFile.sTag (r : RegFile) (i : SReg) : Bool := i != 0 && r.sPoison.getLsbD i.val

/-- A predicate register as read: p0 reads all ones (R67). -/
def RegFile.pGet (r : RegFile) (i : PReg) : PredBits := if i = 0 then BitVec.allOnes 128 else r.p[i.val]

/-- The poison tag of a predicate register; p0 carries none. -/
def RegFile.pTag (r : RegFile) (i : PReg) : Bool := i != 0 && r.pPoison.getLsbD i.val

/-- A bit of a register of tags set or cleared. -/
def putBit {n : Nat} (w : BitVec n) (i : Nat) (x : Bool) : BitVec n := setFld w i i (ofBool x)

/-- A scalar register written with its tag; a write to s0 is discarded (R67). -/
def RegFile.sPut (r : RegFile) (i : SReg) (v : W64) (tag : Bool) : RegFile :=
  if i = 0 then r else { r with s := r.s.set i.val v, sPoison := putBit r.sPoison i.val tag }

/-- A scalar register that keeps its value and becomes poisoned (R103). -/
def RegFile.sTaint (r : RegFile) (i : SReg) : RegFile :=
  if i = 0 then r else { r with sPoison := putBit r.sPoison i.val true }

/-- A predicate register written with its tag; a write to p0 is discarded (R67). -/
def RegFile.pPut (r : RegFile) (i : PReg) (v : PredBits) (tag : Bool) : RegFile :=
  if i = 0 then r else { r with p := r.p.set i.val v, pPoison := putBit r.pPoison i.val tag }

/-- A predicate register that keeps its value and becomes poisoned. -/
def RegFile.pTaint (r : RegFile) (i : PReg) : RegFile :=
  if i = 0 then r else { r with pPoison := putBit r.pPoison i.val true }

/-- A vector register as read, with its 32 group tags. -/
def RegFile.vGet (r : RegFile) (i : VReg) : Vec := r.v[i.val]

/-- The group tags of a vector register. -/
def RegFile.vTag (r : RegFile) (i : VReg) : BitVec 32 := r.vPoison[i.val]

/-- A vector register written whole, with its tags. -/
def RegFile.vPut (r : RegFile) (i : VReg) (v : Vec) (tags : BitVec 32) : RegFile :=
  { r with v := r.v.set i.val v, vPoison := r.vPoison.set i.val tags }

/-- The state with the registers of a core changed. -/
def State.mapRegs (s : State) (p : PCore) (f : RegFile → RegFile) : State :=
  let c := s.core p
  s.setCore p { c with regs := f c.regs }

/-- The registers as the bundle being issued reads them (R71). -/
def State.src (s : State) (p : PCore) : RegFile := (s.core p).src

/-! ### Issue counts (R421, R423, R428) -/

/-- The counts of a core's finished cycle with an issue: CYCLES, BUNDLES and the slots (R421). -/
def State.flushIssue (s : State) (p : PCore) : State :=
  match (s.core p).slotMask with
  | none => s
  | some m =>
    let k := (List.range 4).countP fun i => m.getLsbD i
    let s := ((((s.fixed p 0 1).fixed p 1 1).fixed p 2 k).fixed p 3 (4 - k)).activity p 0 1
    s.setCore p { s.core p with slotMask := none }

/-- The OP of a tagged or matching instruction, and whether PMU_SAMPLE_CTL lets it match (R428). -/
def State.sampleMatches (s : State) (p : PCore) (slot op : Nat) : Bool :=
  let w := s.reg (Reg.PMU_SAMPLE_CTL p)
  fld w 23 0 != 0 && bit w (58 + slot) && (bit w 62 || fld w 57 50 == op)

/-- A match decrements the countdown; at zero the instruction is tagged, or the tag is skipped (R428). -/
def State.sampleIssue (s : State) (p : PCore) (slot op : Nat) : State :=
  if s.sampleMatches p slot op && s.rd Reg.PMU_CTL 1 1 == 0 then
    let c := s.core p
    let period := s.rd (Reg.PMU_SAMPLE_CTL p) 23 0
    let n := if c.countdown = 0 then period else c.countdown
    if n > 1 then s.setCore p { c with countdown := n - 1 }
    else
      match c.sample with
      | some _ => (s.setCore p { c with countdown := period }).count (Reg.PMU_SAMPLE_STAT p) 47 32 1
      | none =>
        let t : Sample :=
          { tag := s.tag, tcycle := s.seat.cycle, slot := BitVec.ofNat 2 slot, op := BitVec.ofNat 8 op, space := 0,
            bundle := c.bundle, addr := 0, attempt := BitVec.ofNat 8 (s.rd Reg.TBL_RUN 63 56),
            xq := c.xq.length + c.ports.length,
            flags := 0 }
        (s.setCore p { c with countdown := period, sample := some t }).wr (Reg.PMU_SAMPLE_STAT p) 0 0 1
  else s

/-- The address that a tagged instruction's record shows (R430), noted when the instruction issues. -/
def State.noteAddr (s : State) (p : PCore) (slot space : Nat) (a : W64) : State :=
  let c := s.core p
  match c.sample with
  | some t =>
    if t.bundle = c.bundle ∧ t.slot = BitVec.ofNat 2 slot ∧ t.tag = s.tag ∧ t.tcycle = s.seat.cycle ∧ t.addr = 0 then
      s.setCore p { c with sample := some { t with addr := a, space := BitVec.ofNat 2 space } }
    else s
  | none => s

/-- The operation codes of the float instructions of slot 1: the forms .f of 05 (R350 class 6). -/
def isFloatOp (slot op : Nat) : Bool :=
  slot == 1 && (decide (op ≤ 0x09) || (decide (0x20 ≤ op ∧ op ≤ 0x23)) || op == 0x38 || decide (0x3C ≤ op ∧ op ≤ 0x3E))

/-- An instruction of slot `slot` has issued: it is counted and may be tagged (R421, R423, R428). -/
def State.noteIssue (s : State) (p : PCore) (slot op : Nat) : State :=
  let c := s.core p
  let s := s.setCore p { c with slotMask := some ((c.slotMask.getD 0) ||| (1 <<< slot)) }
  ((s.pmu p 0x01 (fun q => q / 2 ^ slot % 2)).activity p 6 (ofBool (isFloatOp slot op))).sampleIssue p slot op

end Sys2Proof.Machine
end

