-- ==== Sys2Proof/Machine/Flags.lean ====
section
/-! DEFINITION. The numeric flags and their events (03_numeric_formats.md R65, R66), the sums that scalar and vector
arithmetic rounds, and the stochastic rounding's random values (R53). -/

namespace Sys2Proof.Machine

/-- The flags of one conversion instruction (R65). -/
structure ConvFlags where
  ovf : Bool := false
  inexact : Bool := false
  invalid : Bool := false
  scaleNan : Bool := false
  tern : Bool := false
  deriving DecidableEq, Repr

/-- The flags of a conversion's elements together. -/
def ConvFlags.or (a b : ConvFlags) : ConvFlags :=
  { ovf := a.ovf || b.ovf, inexact := a.inexact || b.inexact, invalid := a.invalid || b.invalid,
    scaleNan := a.scaleNan || b.scaleNan, tern := a.tern || b.tern }

/-- The flags that one converted element sets (R50, R51). -/
def Conv.flags (c : Conv) : ConvFlags := { ovf := c.ovf, inexact := c.inexact, invalid := c.invalid }

/-- Bits [4:0] of CORE_NUM_FLAGS that the flags set. -/
def ConvFlags.mask (f : ConvFlags) : W64 :=
  BitVec.ofNat 64 (ofBool f.ovf + 2 * ofBool f.inexact + 4 * ofBool f.invalid + 8 * ofBool f.scaleNan
    + 16 * ofBool f.tern)

/-- The event of code `code` is raised when its flag is among `m` and its enable bit in CORE_NUM_EVENT_EN is 1; bit
`en` is that enable bit (R65). -/
def State.numEvent (s : State) (p : PCore) (on : Bool) (code en : Nat) (arg : W64) (slot : Nat) (bundle : BitVec 13) :
    State :=
  if on && bit (s.reg (Reg.CORE_NUM_EVENT_EN p)) en then s.raiseAt p code arg REQ_NONE slot bundle else s

/-- An instruction sets flags in CORE_NUM_FLAGS and raises each enabled event at most once, in the order of the codes
(R59, R65, R66). `a` is the logical array of the array flags and the ARG of the events. -/
def State.numFlags (s : State) (p : PCore) (m : W64) (a slot : Nat) (bundle : BitVec 13) : State :=
  let s := s.orReg (Reg.CORE_NUM_FLAGS p) m
  let arg := BitVec.ofNat 64 a
  let s := s.numEvent p (fld m 11 6 != 0) 0x00 0 arg slot bundle
  let s := s.numEvent p (fld m 17 12 != 0) 0x01 1 arg slot bundle
  let s := s.numEvent p (bit m 0) 0x02 2 arg slot bundle
  let s := s.numEvent p (bit m 3) 0x03 3 arg slot bundle
  s.numEvent p (bit m 4) 0x04 4 arg slot bundle

end Sys2Proof.Machine
end

