-- ==== Sys2Proof/Machine/Operands.lean ====
section
/-! DEFINITION. Every operand form: guards (R103), scalar and vector sources, broadcast operands, lane masks (R68),
scratch addresses, the layout of array operands (R131, R132), and the scratch ranges that issued instructions have yet
to read or write (R140). -/

namespace Sys2Proof.Machine

/-! ### Guards -/

/-- What a guard says: it is poisoned, it forbids, or it permits. -/
inductive Guard where
  | poisoned | off | on
  deriving DecidableEq, Repr

/-- The guard of a slot-0, slot-2 or slot-3 instruction: bit 0 of its predicate (R103, R127). -/
def RegFile.guard (r : RegFile) (pg : PReg) : Guard :=
  if r.pTag pg then .poisoned else if (r.pGet pg).getLsbD 0 then .on else .off

/-- The registers that an instruction will read: those of its bundle if it has begun, else the present ones. -/
def State.view (s : State) (k : At) : RegFile := if k.lead then (s.core k.core).regs else (s.core k.core).src

/-- A scalar result under a guard: written where it permits, kept and poisoned where it is poisoned (R103). -/
def State.putScalar (s : State) (p : PCore) (g : Guard) (sd : SReg) (v : W64) (tag : Bool) : State :=
  match g with
  | .poisoned => s.mapRegs p fun r => r.sTaint sd
  | .off => s
  | .on => s.mapRegs p fun r => r.sPut sd v tag

/-- A predicate result under a guard. -/
def State.putPred (s : State) (p : PCore) (g : Guard) (pd : PReg) (v : PredBits) (tag : Bool) : State :=
  match g with
  | .poisoned => s.mapRegs p fun r => r.pTaint pd
  | .off => s
  | .on => s.mapRegs p fun r => r.pPut pd v tag

/-! ### Vector operands -/

/-- Lane k of width w is enabled: bit k * w / 8 of the guard (R68). -/
def laneOn (g : PredBits) (w k : Nat) : Bool := g.getLsbD (k * w / 8)

/-- The tag of the 32-bit group that holds lane k of width w (R86). -/
def laneTag (tags : BitVec 32) (w k : Nat) : Bool := tags.getLsbD (k * w / 32)

/-- The lane width that W selects: 8, 16 or 32 bits (R102). -/
def widthOfW (w : BitVec 2) : Nat := 8 * 2 ^ w.toNat

/-- The float format of FMT codes 0 to 2. -/
def floatFmt (c : Nat) : Fmt := (Fmt.ofCode c).getD .f32

/-- Operand B of a V-format instruction: lane k, and whether it is poisoned. With BX = 1 it is the low bits of s[SX]
(05 "Vector arithmetic"). -/
def VForm.laneB (f : VForm) (r : RegFile) (w k : Nat) : Nat × Bool :=
  if f.bx then ((r.sGet f.sx).toNat % 2 ^ w, r.sTag f.sx) else (lane (r.vGet f.vb) w k, laneTag (r.vTag f.vb) w k)

/-- A new vector register from lanes: `new k` gives lane k and its tag where the lane is written. A group written in
full takes the tags written; one written in part adds them to its own (R86). -/
def mergeLanes (old : Vec) (tags : BitVec 32) (w : Nat) (new : Nat → Option (Nat × Bool)) : Vec × BitVec 32 :=
  let n := 1024 / w
  let v := packNat w ((List.range n).map fun k =>
    match new k with | some x => x.1 | none => lane old w k)
  let per := 32 / w
  let t := packNat 1 ((List.range 32).map fun g =>
    let ls := (List.range per).map fun j => new (g * per + j)
    let full := ls.all Option.isSome
    let tag := ls.any fun x => (x.map (·.2)).getD false
    ofBool (tag || (!full && tags.getLsbD g)))
  (BitVec.ofNat 1024 v, BitVec.ofNat 32 t)

/-- A vector result of width w under a slot-1 guard: disabled lanes keep value and tag (R68); under a poisoned guard
every lane keeps its value and becomes poisoned (R87, R103). -/
def State.putLanes (s : State) (p : PCore) (pg : PReg) (vd : VReg) (w : Nat) (new : Nat → Nat × Bool) : State :=
  let src := s.src p
  if src.pTag pg then s.mapRegs p fun r => r.vPut vd (r.vGet vd) (BitVec.allOnes 32)
  else
    let g := src.pGet pg
    s.mapRegs p fun r =>
      let m := mergeLanes (r.vGet vd) (r.vTag vd) w fun k => if laneOn g w k then some (new k) else none
      r.vPut vd m.1 m.2

/-! ### Array operands (R131 to R133) -/

/-- Rows and columns of a tile: 16 in quadrant mode, 32 in whole mode. -/
def tileR (cfg : W64) : Nat := if bit cfg 54 then 16 else 32

/-- Terms per cell and step: 2 when D2 = 1. -/
def tileD (cfg : W64) : Nat := if bit cfg 42 then 2 else 1

/-- The block size of scaled operands. -/
def tileB (cfg : W64) : Nat := if bit cfg 52 then 16 else 32

/-- 32-byte words that n packed elements fill (R45, R131). -/
def wordsFor (f : Fmt) (n : Nat) : Nat := if f = .tern then ceilDiv n 160 else ceilDiv (n * f.width) 256

/-- The format that a slot-2 command loads. -/
def ArrCmd.fmt (c : ArrCmd) : Fmt := (Fmt.ofCode (if c.op = .feed then c.f.fmtb.toNat else c.f.fmta.toNat)).getD .f32

/-- Elements that an MLDS or FEED loads. -/
def ArrCmd.elems (c : ArrCmd) : Nat :=
  tileR c.cfg * tileD c.cfg * (if c.op = .feed then c.f.n1.toNat + 1 else tileR c.cfg)

/-- Data words that an MLDS or FEED reads. -/
def ArrCmd.nwords (c : ArrCmd) : Nat := wordsFor c.fmt c.elems

/-- The command loads scales: SC = 1 with a format that takes them (R132). -/
def ArrCmd.scaled (c : ArrCmd) : Bool := c.f.sc && c.fmt.isScaled

/-- Scale bytes that an MLDS or FEED reads: one for each block of each column or row (R132). -/
def ArrCmd.scaleBytes (c : ArrCmd) : Nat :=
  if c.scaled then ceilDiv (c.elems / tileR c.cfg) (tileB c.cfg) * tileR c.cfg else 0

/-- Bytes of a drained cell (06, z): 8 for a grid value, else the width of DFMT. -/
def drainZ (cfg : W64) : Nat :=
  if !bit cfg 53 && bit cfg 51 then 8 else ((Fmt.ofCode (fld cfg 50 47)).getD .f32).width / 8

/-- Bytes of a preloaded cell (R138). -/
def preloadZ (cfg : W64) : Nat := if bit cfg 53 then 4 else 8

/-- Scratch ranges that a queued array command has yet to read. -/
def ArrCmd.reads (c : ArrCmd) : List (Nat × Nat) :=
  if c.poisoned then []
  else match c.op with
    | .mlds | .feed =>
      [(c.x.toNat + 32 * c.words.length, 32 * (c.nwords - c.words.length)),
       (c.y.toNat + 32 * c.scales.length, c.scaleBytes - 32 * c.scales.length)]
    | .mpre => [(c.x.toNat, tileR c.cfg * tileR c.cfg * preloadZ c.cfg)]
    | _ => []

/-- Scratch ranges that a queued array command has yet to write; a poisoned MDRN sets the tags of its range (R127). -/
def ArrCmd.writes (c : ArrCmd) : List (Nat × Nat) :=
  if c.op = .mdrn ∧ c.addrOk then [(c.x.toNat, tileR c.cfg * tileR c.cfg * drainZ c.cfg)] else []

/-! ### Pending scratch ranges (R140) -/

/-- The KV-attend descriptor's field of n bytes at an offset. -/
def descField (d : List Byte) (o n : Nat) : Nat := leNat ((d.drop o).take n)

/-- Query rows of a KV-attend descriptor: HEADS x POS (R151). -/
def descRows (d : List Byte) : Nat := descField d 3 1 * descField d 4 1

/-- Scratch ranges that a transfer has yet to read. -/
def Xfer.reads (x : Xfer) : List (Nat × Nat) :=
  match x.op with
  | .store a ws _ _ _ => [(a, 32 * ws.length)]
  | .store8 a us _ _ _ => [(a, 8 * us.length)]
  | .kvatt d => [(descField d 24 4, 256 * descRows d)]
  | _ => []

/-- Scratch ranges that a transfer has yet to write. -/
def Xfer.writes (x : Xfer) : List (Nat × Nat) :=
  match x.op with
  | .load a ws => [(a + 32 * x.done, 32 * (ws.length - x.done))]
  | .kvatt d => [(descField d 28 4, 544 * descRows d)]
  | .taint rs => rs
  | _ => []

/-- Scratch ranges that the core's issued instructions have yet to read (R140). -/
def Core.pendingReads (c : Core) : List (Nat × Nat) :=
  c.xq.flatMap Xfer.reads ++ c.arrays.toList.flatMap fun a => a.queue.flatMap ArrCmd.reads

/-- Scratch ranges that they have yet to write (R140): transfers, drains queued and drains being written out. -/
def Core.pendingWrites (c : Core) : List (Nat × Nat) :=
  c.xq.flatMap Xfer.writes ++ c.arrays.toList.flatMap fun a =>
    a.queue.flatMap ArrCmd.writes ++ (a.drain.toList.map fun d => (d.addr, d.data.length))

/-- Two byte ranges touch a common 256-bit word; an empty range touches none. -/
def wordsMeet (a b : Nat × Nat) : Bool :=
  decide (a.2 > 0 ∧ b.2 > 0 ∧ a.1 / 32 ≤ (b.1 + b.2 - 1) / 32 ∧ b.1 / 32 ≤ (a.1 + a.2 - 1) / 32)

/-- A range that an instruction would read meets one that is yet to be written (R140). -/
def Core.readBusy (c : Core) (r : Nat × Nat) : Bool := c.pendingWrites.any (wordsMeet r)

/-- A range that an instruction would write meets one that is yet to be read or written (R140). -/
def Core.writeBusy (c : Core) (r : Nat × Nat) : Bool := c.pendingWrites.any (wordsMeet r) || c.pendingReads.any (wordsMeet r)

/-- The wait of R140, counted as register pending. -/
def busyCause (b : Bool) : Option Idle := if b then some .register else none

/-! ### Random values of stochastic rounding (R53) -/

/-- The 16-bit random value of an element index (R53): SEED, trick tag, stream selector and block number, all
little-endian, under SHAKE256. -/
def State.random (s : State) (p : PCore) (stream : Nat) (n : W64) : Nat :=
  let msg := leBytes 8 (s.reg (Reg.CORE_SR_SEED0 p)).toNat ++ leBytes 8 (s.reg (Reg.CORE_SR_SEED1 p)).toNat
    ++ leBytes 8 s.tag.toNat ++ leBytes 2 stream ++ leBytes 8 (n.toNat / 64)
  leNat (((shake256 msg 128).drop (2 * (n.toNat % 64))).take 2)

end Sys2Proof.Machine
end

