-- ==== Sys2Proof/Machine/Events.lean ====
section
/-! DEFINITION. Shared operations of the module's outer parts: seat-level event records (R300), accesses that are logged
(R339), the rates at which events may repeat, output, the repair ledger's appends, links and towers. -/

namespace Sys2Proof.Machine

/-- Table time (R240). -/
def State.now (s : State) : Nat := (s.reg Reg.TBL_TIME).toNat

/-- The present millisecond of table time; CLK_TICK stays at 100 MHz (R240). -/
def State.ms (s : State) : Nat := s.now / 100000

/-- A seat-level record (R300). -/
def State.seatRecord (s : State) (code : Nat) (arg : W64) (req : Nat) : Record :=
  let on := s.dealRuns
  { tag := if on then s.tag else 0, tcycle := if on then s.seat.cycle else 0, lcore := 0xFF, pcore := 0x1FF,
    req := BitVec.ofNat 2 req, slot := 0, code := BitVec.ofNat 8 code, arg, lost := 0, bundle := 0 }

/-- A seat-level event: its record is on its way to the hub's log. -/
def State.event (s : State) (code : Nat) (arg : W64) (req : Nat) : State :=
  { s with hubQueue := s.hubQueue ++ [s.seatRecord code arg req] }

/-- An event whose ARG is given as a number. -/
def State.eventN (s : State) (code arg req : Nat) : State := s.event code (BitVec.ofNat 64 arg) req

/-- An access that is logged (R339): HST_ACCESS_LOG, the count and HST_ACCESS. SRC is 0 control, 1 vault window, 2
Crix. -/
def State.access (s : State) (src addr : Nat) : State :=
  let s := s.setReg Reg.HST_ACCESS_LOG (BitVec.ofNat 64 (src * 2 ^ 62 + addr % 2 ^ 62))
  (s.count Reg.HST_CMD_STAT 15 0 1).eventN 0x52 addr 0

/-- The module sends something out of one of its ports. -/
def State.send (s : State) (m : Sent) : State := { s with sent := m :: s.sent }

/-- Records appended to the ledger's field part: they wait in hub SRAM for their batch (R27, R36, R190, R415). -/
def State.append (s : State) (rs : List LedgerRec) : State :=
  let l := s.boot.ledger
  { s with boot := { s.boot with ledger := { l with queue := l.queue ++ rs, applied := l.applied ++ rs } } }

/-- A link beyond its registers. -/
def State.link (s : State) (l : LinkIx) : Link := s.links[l.val]

/-- The state with a link replaced. -/
def State.setLink (s : State) (l : LinkIx) (x : Link) : State := { s with links := s.links.set l.val x }

/-- A tower's thermal supervisor. -/
def State.towerHeat (s : State) (t : Tower) : TowerHeat := s.heat[t.val]

/-- The state with a tower's thermal supervisor replaced. -/
def State.setHeat (s : State) (t : Tower) (x : TowerHeat) : State := { s with heat := s.heat.set t.val x }

/-- A collective engine. -/
def State.engine (s : State) (e : EngIx) : Engine := s.engines[e.val]

/-- The state with an engine replaced. -/
def State.setEngine (s : State) (e : EngIx) (x : Engine) : State := { s with engines := s.engines.set e.val x }

/-- Every physical core, in ascending index. -/
def allCores : List PCore := List.finRange 272

/-- The physical cores of a tower. -/
def coresOfTower (t : Tower) : List PCore := allCores.filter fun p => towerOf p == t

/-- Every link. -/
def allLinks : List LinkIx := List.finRange 48

/-- Every tower. -/
def allTowers : List Tower := List.finRange 4

/-- Every engine. -/
def allEngines : List EngIx := List.finRange 4

/-- The physical cores that a valid map entry names, in ascending logical index (R96, R99). -/
def State.serving (s : State) : List PCore := (List.range 256).filterMap s.physOf

/-- A step applied to each of a list, in order. -/
def State.each {α : Type} (s : State) (xs : List α) (f : State → α → State) : State := xs.foldl f s

/-- A deal is loaded (R269). -/
def State.dealLoaded (s : State) : Bool := s.seat.deal.isSome

/-- A rubber is running (R15, R184). -/
def State.running (s : State) : Bool := s.tblState == TS_RUNNING

/-- The variant in force (TBL_STAT.VARIANT). -/
def State.variant (s : State) : Nat := s.rd Reg.TBL_STAT 31 28

/-- The attempt of the current or held rubber (TBL_RUN.ATTEMPT). -/
def State.attempt (s : State) : Nat := s.rd Reg.TBL_RUN 63 56

/-- The seat's identity. -/
def State.seatId (s : State) : Nat := s.seat.ident.toNat

/-- TBL_STAT.D of a table's shape (R293). -/
def diameterOf (f : W64) : Nat :=
  (fld f 31 29 + 1) / 2 + (fld f 28 26 + 1) / 2 + (fld f 25 23 + 1) / 2 + ofBool (decide (0 < fld f 22 16))

/-- TBL_STAT shows the seat's identity and the table's diameter. -/
def State.showSeat (s : State) : State :=
  (s.wr Reg.TBL_STAT 27 18 s.seatId).wr Reg.TBL_STAT 39 34 (diameterOf (s.reg Reg.TBL_FORM))

/-- CLK_CORE of a core runs: no trip (R379), and its tower's clock has not failed (R33). -/
def State.clocked (s : State) (p : PCore) : Bool := s.boot.clocks && !bit s.boot.clockLost (towerOf p).val

/-- The seat is a dummy (TBL_FORM.ROLE). -/
def State.isDummy (s : State) : Bool := s.rd Reg.TBL_FORM 1 1 == 1

/-! ### The deal in force (R260, R266) -/

/-- The body of a kind that serves a logical core (0xFFFF for none) in a variant: that variant's section where it has
one, else variant 0's (R260). -/
def Deal.find (d : Deal) (v lc : Nat) (sel : Body → Bool) : Option Body :=
  match d.sections.find? fun x => x.variant == v && x.lcore == lc && sel x.body with
  | some x => some x.body
  | none => (d.sections.find? fun x => x.variant == 0 && x.lcore == lc && sel x.body).map (·.body)

/-- The trick table of a variant. -/
def Deal.tricksOf (d : Deal) (v : Nat) : List TrickEntry :=
  match d.find v 0xFFFF fun b => match b with | .tricks _ => true | _ => false with
  | some (.tricks es) => es
  | _ => []

/-- The release heads of a logical core in a variant. -/
def Deal.releaseOf (d : Deal) (v lc : Nat) : List RelHead :=
  match d.find v lc fun b => match b with | .release _ => true | _ => false with
  | some (.release hs) => hs
  | _ => []

/-- The engine programs of a variant. -/
def Deal.collOf (d : Deal) (v : Nat) : List CollEntry :=
  match d.find v 0xFFFF fun b => match b with | .collective _ => true | _ => false with
  | some (.collective es) => es
  | _ => []

/-- The vault windows of a logical core in a variant. -/
def Deal.windowsOf (d : Deal) (v lc : Nat) : List WindowEntry :=
  match d.find v lc fun b => match b with | .windows _ => true | _ => false with
  | some (.windows es) => es
  | _ => []

/-- The start index of a variant in a logical core's hand: of the variant's own HAND section or of variant 0's, entry v. -/
def Deal.startOf (d : Deal) (v lc : Nat) : Nat :=
  match d.find v lc fun b => match b with | .hand _ _ => true | _ => false with
  | some (.hand ss _) => ss.getD v 0
  | _ => 0

/-- The SEAT_MAP in force. -/
def Deal.mapOf (d : Deal) (v : Nat) : Option (Nat × Nat × List MapLink) :=
  match d.find v 0xFFFF fun b => match b with | .seatMap .. => true | _ => false with
  | some (.seatMap su r ls) => some (su, r, ls)
  | _ => none

/-- The trick table in force. -/
def State.tricks (s : State) : List TrickEntry :=
  match s.seat.deal with
  | some d => d.tricksOf s.variant
  | none => []

/-- The release entries of a core for the current trick (R244). -/
def State.releases (s : State) (p : PCore) : List RelEntry :=
  match s.seat.deal with
  | none => []
  | some d =>
    match (d.releaseOf s.variant (s.lcoreOf p)).find? fun h => h.trick == s.seat.trick.toNat with
    | some h => h.entries
    | none => []

/-- The engine entries of the variant in force. -/
def State.collEntries (s : State) : List CollEntry :=
  match s.seat.deal with
  | some d => d.collOf s.variant
  | none => []

/-- Cycles from the start of a rubber to the end of trick n. -/
def rubberEnd (ts : List TrickEntry) (n : Nat) : Nat := ((ts.take (n + 1)).map (·.len)).sum

/-- The last guarded trick: the first that ends at or after cycle HOLD_WIN; where none does, the window is open to the end of
the rubber (R252). -/
def State.lastGuarded (s : State) : Nat :=
  match s.seat.deal with
  | none => 0
  | some d => ((List.range s.tricks.length).find? fun n => decide (d.holdWin ≤ rubberEnd s.tricks n)).getD (s.tricks.length - 1)

end Sys2Proof.Machine
end

