-- ==== Sys2Proof/Machine/Issue.lean ====
section
/-! DEFINITION. The issue of a bundle (04 R70 to R72, R83 to R85; 05 R113 to R116): power bubbles (15 R348, R354), what a
slot word keeps waiting, revokes (11 R247), and the one operation through which every instruction issues. -/

namespace Sys2Proof.Machine

/-! ### Cycles and bubbles (R348, R354) -/

/-- The core clock in effect: 0 is 2.4 GHz (TBL_STAT.CLOCK). -/
def State.clock (s : State) : Nat := s.rd Reg.TBL_STAT 33 32

/-- Root-clock cycles in a cycle of CLK_CORE: 2.4, 1.92 and 1.6 GHz from 9.6 GHz (00_scope.md "Time and clocks"). -/
def State.rootCycles (s : State) : Nat := if s.clock = 0 then 4 else if s.clock = 1 then 5 else 6

/-- Root-clock cycles since the last governor window began (R350): windows begin at multiples of 200 ticks of 96. -/
def State.windowRoot (s : State) : Nat := s.now % 200 * 96 + s.seat.phase

/-- Cycle k of a span is a bubble of a core under a fraction n of 64 (R354). A span and every window length are multiples
of 64 cycles apart, so k counts from the window's start as well. -/
def isBubble (k pcore n : Nat) : Bool :=
  let j := (k + 2 * (pcore % 32)) % 64
  decide (j * n / 64 < (j + 1) * n / 64)

/-- The present cycle is a bubble of a core: by the governor's fraction, or by the droop response of its die, which takes
every second of its 96 cycles, the first included (R348). -/
def State.bubble (s : State) (p : PCore) : Bool :=
  let t := towerOf p
  let r := (s.towerPower t).response[(dieOf p).val % 2]'(Nat.mod_lt _ (by decide))
  isBubble (s.windowRoot / s.rootCycles) p.val (s.rd (Reg.PWR_BUBBLE t) 5 0) || (decide (r ≠ 0) && decide (r % 2 = 0))

/-! ### Slot words as instructions -/

/-- The fields of a slot word in format V. -/
def VForm.ofWord (w : W64) : VForm :=
  { pg := Fin.ofNat 16 (fld w 55 52), vd := Fin.ofNat 32 (fld w 51 47), va := Fin.ofNat 32 (fld w 46 42),
    vb := Fin.ofNat 32 (fld w 41 37), vc := Fin.ofNat 32 (fld w 36 32), fmt := w.extractLsb' 28 4, rm := w.extractLsb' 21 3,
    w := w.extractLsb' 18 2, sx := Fin.ofNat 64 (fld w 17 12), bx := bit w 11, imm := w.extractLsb' 0 11 }

/-- The fields of a slot word in format M. -/
def MForm.ofWord (w : W64) : MForm :=
  { pg := Fin.ofNat 16 (fld w 55 52), ma := w.extractLsb' 49 3, q := Fin.ofNat 4 (fld w 48 47), buf := bit w 46,
    t := bit w 45, clr := bit w 44, sc := bit w 43, fmta := w.extractLsb' 39 4, fmtb := w.extractLsb' 35 4,
    sx := Fin.ofNat 64 (fld w 34 29), sy := Fin.ofNat 64 (fld w 28 23), n1 := w.extractLsb' 18 5, imm := w.extractLsb' 0 18 }

/-- The fields of a slot word in format X. -/
def XForm.ofWord (w : W64) : XForm :=
  { pg := Fin.ofNat 16 (fld w 55 52), spc := bit w 51, u := bit w 50, tag := w.extractLsb' 48 2,
    sx := Fin.ofNat 64 (fld w 47 42), sy := Fin.ofNat 64 (fld w 41 36), sz := Fin.ofNat 64 (fld w 35 30),
    cnt := w.extractLsb' 16 14, idx := w.extractLsb' 0 16 }

/-- The slot-2 command that an operation code names. -/
def ArrOp.ofCode (op : Nat) : ArrOp :=
  match op with
  | 0x01 => .mcfg
  | 0x02 => .mlds
  | 0x03 => .feed
  | 0x04 => .mma
  | 0x05 => .mdrn
  | 0x06 => .mpre
  | _ => .mclr

/-! ### Arrays as commands meet them at issue -/

/-- The physical array that serves logical array a in the present rubber (R166). -/
def State.physArr (s : State) (a : Nat) : ArrIx := ⟨(a + s.rubber % 6) % 6, Nat.mod_lt _ (by decide)⟩

/-- The physical array that serves logical array a of a core. -/
def State.arr (s : State) (p : PCore) (a : Nat) : Arr := (s.core p).arrays[(s.physArr a).val]

/-- An MCFG word that R139 reason 1 rejects. -/
def cfgBad (w : W64) : Bool := fld w 41 0 != 0 || !([0, 1, 2, 3, 4].contains (fld w 50 47))

/-- The configuration in force for a command that issues now: the last MCFG queued and not to be rejected, else the
array's (R135). -/
def Arr.pendingCfg (x : Arr) : W64 :=
  match (x.queue.filter fun c => c.op == .mcfg && !c.poisoned && !cfgBad c.x).getLast? with
  | some c => c.x
  | none => x.cfg

/-- The command as it enters the queue, before its operands are judged; `ord` counts the MDRN issued before it. -/
def mkCmd (op : ArrOp) (f : MForm) (r : RegFile) (cfg : W64) (bundle : BitVec 13) (ord : Nat) : ArrCmd :=
  { op, f, x := if op = .mcfg then r.sGet f.sx else r.sGet f.sx + BitVec.ofNat 64 (32 * f.imm.toNat),
    y := r.sGet f.sy, poisoned := false, addrOk := false, cfg, words := [], scales := [], step := 0, bundle, ord }

/-- An operand register of the command is poisoned: the address, the scale address where it is used, MCFG's words. -/
def cmdTag (op : ArrOp) (f : MForm) (r : RegFile) : Bool :=
  match op with
  | .mcfg => r.sTag f.sx || r.sTag f.sy
  | .mlds | .feed => r.sTag f.sx || (f.sc && r.sTag f.sy)
  | .mdrn | .mpre => r.sTag f.sx
  | .mma | .mclr => false

/-- The scratch ranges of a command, which must lie in scratch and start at a 32-byte boundary (R79, R132, R165). -/
def ArrCmd.ranges (c : ArrCmd) : List (Nat × Nat) := c.reads ++ { c with addrOk := true }.writes

/-! ### Addresses and ranges of slot words -/

/-- The scratch address s[SA] + IMM, modulo 2^64. -/
def RegFile.ea (r : RegFile) (sa : SReg) (imm : BitVec 40) : W64 := r.sGet sa + imm.signExtend 64

/-- Bytes of a VLD or VST. -/
def VForm.size (f : VForm) : Nat := 32 * 2 ^ f.w.toNat

/-- The scratch address s[SX] + IMM x size. -/
def VForm.ea (f : VForm) (r : RegFile) : W64 := r.sGet f.sx + f.imm.signExtend 64 * BitVec.ofNat 64 f.size

/-- Bytes moved by VLOAD or VSTORE. -/
def XForm.bytes (f : XForm) : Nat := f.cnt.toNat * (if f.u then 8 else 32)

/-- The scratch range of a transfer of n bytes, where its address is clean. -/
def scratchRange (f : XForm) (n : Nat) (r : RegFile) : List (Nat × Nat) :=
  if r.sTag f.sx then [] else [((r.sGet f.sx).toNat, n)]

/-- A descriptor fails R151. -/
def descBad (d : List Byte) : Bool :=
  let h := descField d 3 1
  let n := descField d 4 1
  let rows := h * n
  let q := descField d 24 4
  let o := descField d 28 4
  descField d 5 1 / 4 != 0 || (d.drop 32).any (· != 0) || h == 0 || decide (h > 32) || n == 0 || decide (n > 32) ||
    q % 32 != 0 || o % 32 != 0 || decide (q + 256 * rows > scratchSize) || decide (o + 544 * rows > scratchSize)

/-- The descriptor at a scratch address. -/
def Core.desc (c : Core) (a : Nat) : List Byte := c.scratch.bytes a 64

/-- The descriptor of a KVATT can be read: its address is clean and R151 places it in scratch. -/
def kvDesc (r : RegFile) (f : XForm) : Bool :=
  let a := (r.sGet f.sx).toNat
  !r.sTag f.sx && a % 32 == 0 && decide (a + 64 ≤ scratchSize)

/-- The scratch ranges of a KVATT: its descriptor, its query rows and its output rows, where they can be read and R151
holds. -/
def Core.kvRanges (c : Core) (f : XForm) : List (Nat × Nat) × List (Nat × Nat) × List (Nat × Nat) :=
  let a := (c.regs.sGet f.sx).toNat
  let d := c.desc a
  if !kvDesc c.regs f then ([], [], [])
  else if descBad d then ([(a, 64)], [], [])
  else ([(a, 64)], [(descField d 24 4, 256 * descRows d)], [(descField d 28 4, 544 * descRows d)])

/-! ### What keeps a slot waiting (R84 causes 4 to 6) -/

/-- LDS: the range it would read is yet to be written (R140). -/
def State.ldsBlocked (s : State) (p : PCore) (pg : PReg) (sa : SReg) (imm : BitVec 40) : Option Idle :=
  let r := (s.core p).regs
  busyCause (r.guard pg == .on && !r.sTag sa && (s.core p).readBusy ((r.ea sa imm).toNat, 8))

/-- STS: the range it would write is yet to be read or written (R140). -/
def State.stsBlocked (s : State) (p : PCore) (pg : PReg) (sa : SReg) (imm : BitVec 40) : Option Idle :=
  let r := (s.core p).regs
  busyCause (r.guard pg != .off && !r.sTag sa && (s.core p).writeBusy ((r.ea sa imm).toNat, 8))

/-- VACT: its table is yet to be written (R140). -/
def State.vactBlocked (s : State) (p : PCore) (f : VForm) : Option Idle :=
  let r := (s.core p).regs
  busyCause (!r.pTag f.pg && !r.sTag f.sx && (s.core p).readBusy ((r.sGet f.sx + f.imm.signExtend 64 * 32).toNat, 1056))

/-- VLD: the range it would read is yet to be written (R140). -/
def State.vldBlocked (s : State) (p : PCore) (f : VForm) : Option Idle :=
  let r := (s.core p).regs
  busyCause (!r.pTag f.pg && !r.sTag f.sx && (s.core p).readBusy ((f.ea r).toNat, f.size))

/-- VST: the range it would write is yet to be read or written (R140). -/
def State.vstBlocked (s : State) (p : PCore) (f : VForm) : Option Idle :=
  let r := (s.core p).regs
  busyCause (!r.sTag f.sx && (s.core p).writeBusy ((f.ea r).toNat, f.size))

/-- A slot-2 command: the queue of the array it names is full, whatever its guard (R134), or a scratch range is pending
(R140); under a poisoned guard MDRN alone touches scratch, setting tags (R127). -/
def State.arrBlocked (s : State) (p : PCore) (op : ArrOp) (f : MForm) : Option Idle :=
  let r := (s.core p).regs
  let a := s.arr p f.ma.toNat
  let c := mkCmd op f r a.pendingCfg 0 0
  let reads := c.reads.any (s.core p).readBusy
  let writes := !r.sTag f.sx && ({ c with addrOk := true } : ArrCmd).writes.any (s.core p).writeBusy
  if a.queue.length ≥ 4 then some .array
  else busyCause (match r.guard f.pg with
    | .off => false
    | .poisoned => writes
    | .on => if cmdTag op f r then writes else reads || writes)

/-- Entries of the transfer queue in use (R141). -/
def Core.entries (c : Core) : Nat := c.xq.length + c.ports.length

/-- A slot-3 instruction: a scratch range is pending (R140), or the transfer queue is full, whatever its guard (R141).
`desc` is read even under a poisoned guard, whose destinations are tagged (R127). -/
def State.xBlocked (s : State) (p : PCore) (f : XForm) (desc reads writes : List (Nat × Nat)) : Option Idle :=
  let c := s.core p
  let marks := desc.any c.readBusy || writes.any c.writeBusy
  let busy := match c.regs.guard f.pg with
    | .off => false
    | .poisoned => marks
    | .on => marks || reads.any c.readBusy
  if busy then some .register else if c.entries ≥ 16 then some .xferQueue else none

/-- What keeps a KVATT waiting: its descriptor, its query rows, its output rows. -/
def State.kvBlocked (s : State) (p : PCore) (f : XForm) : Option Idle :=
  let x := (s.core p).kvRanges f
  s.xBlocked p f x.1 x.2.1 x.2.2

/-- What keeps a slot word of the next bundle waiting. -/
def State.slotCause (s : State) (p : PCore) (slot : Nat) (w : W64) : Option Idle :=
  let op := slotOp w
  let r := (s.core p).regs
  if w = 0 then none
  else match slot with
    | 0 =>
      let pg := Fin.ofNat 16 (fld w 55 52)
      let sa := Fin.ofNat 64 (fld w 45 40)
      if op = 0x50 then s.ldsBlocked p pg sa (w.extractLsb' 0 40)
      else if op = 0x51 then s.stsBlocked p pg sa (w.extractLsb' 0 40) else none
    | 1 =>
      let f := VForm.ofWord w
      if op = 0x38 then s.vactBlocked p f
      else if op = 0x40 then s.vldBlocked p f
      else if op = 0x41 then s.vstBlocked p f else none
    | 2 => s.arrBlocked p (ArrOp.ofCode op) (MForm.ofWord w)
    | _ =>
      let f := XForm.ofWord w
      let n := 256 * f.cnt.toNat
      if op = 0x01 then s.xBlocked p f [] [] (scratchRange f f.bytes r)
      else if op = 0x02 then s.xBlocked p f [] (scratchRange f f.bytes r) []
      else if op = 0x10 ∨ op = 0x18 then s.xBlocked p f [] (scratchRange f n r) []
      else if op = 0x11 ∨ op = 0x19 then s.xBlocked p f [] [] (scratchRange f n r)
      else if op = 0x28 then s.kvBlocked p f
      else s.xBlocked p f [] [] []

/-! ### Bundles (R70 to R72) -/

/-- The four slot words of the bundle at an index of the hand store (R70). -/
def Core.bundleWords (c : Core) (b : Nat) : List W64 :=
  (List.range 4).map fun k => BitVec.ofNat 64 (c.hand.num (32 * b + 8 * k) 8)

/-- The bundle that an instruction begins: the one at the next index of the hand store, where the instruction is its first,
else a bundle that holds it alone (log entry 8). -/
def Core.fetched (c : Core) (slot : Nat) (word : W64) : List W64 :=
  let ws := c.bundleWords c.next
  if ws.getD slot 0 = word ∧ (ws.take slot).all (· == 0) = true then ws
  else (List.range 4).map fun j => if j = slot then word else 0

/-- An IBOP.ACT in slot 3 whose table is not valid (R216). -/
def State.actBad (s : State) (p : PCore) (w : W64) : Bool :=
  slotOp w == 0x20 && fld w 15 12 == 7 && !bit (s.reg (Reg.IB_TAB_VALID p)) (fld w 3 0)

/-- The reason and slot for which a bundle is illegal on a core (R72, R216). -/
def State.bundleBad (s : State) (p : PCore) (ws : List W64) : Option (Nat × Nat) :=
  match bundleReason ws with
  | some x => some x
  | none => if s.actBad p (ws.getD 3 0) then some (4, 3) else none

/-- An illegal bundle: CORE_ILLEGAL with its reason; the core requests a stop and issues nothing further (R72, R92). -/
def State.illegal (s : State) (p : PCore) (reason slot : Nat) (bundle : BitVec 13) : State :=
  s.raiseAt p 0x38 (BitVec.ofNat 64 reason) REQ_STOP slot bundle

/-- A bundle may begin, or an instruction of one that has begun may take effect: for the first, clocks run (R379), the core
runs, has not ended its rubber (R115), owes no cycle to a taken transfer (R75), and its last bundle has taken effect
whole (R71). -/
def State.canIssue (s : State) (k : At) : Bool :=
  let c := s.core k.core
  if k.lead then s.clocked k.core && s.coreState k.core == CS_RUNNING && !c.ended && c.due == [] && c.owed == 0
  else c.due != []

/-! ### Revokes (R247) -/

/-- ARG of SCHED_REVOKE (R247). -/
def revokeArg (kind idx missing : Nat) (prev : Bool) (due : Nat) : W64 :=
  BitVec.ofNat 64 (kind * 2 ^ 56 + idx % 4096 * 2 ^ 44 + missing % 16384 * 2 ^ 30 + ofBool prev * 2 ^ 29
    + due % 2 ^ 24)

/-- A revoke: SCHED_REVOKE with a replay request, counted (R247, R423). -/
def State.revoke (s : State) (p : PCore) (kind idx missing : Nat) (prev : Bool) (due slot : Nat)
    (bundle : BitVec 13) : State :=
  (s.pmu p 0x03 (fun _ => 1)).raiseAt p 0x30 (revokeArg kind idx missing prev due) REQ_REPLAY slot bundle

/-- A waiting bundle has missed its deadline at the present position: kind 1 for a deadline (R85), kind 2 for TBAR
(R114). -/
def Waiting.missed (w : Waiting) (trick cycle : BitVec 24) : Option Nat :=
  if w.revoked then none
  else match w.tbar with
    | some t => if t.ult trick || (t == trick && (0 : BitVec 24).ult cycle) then some 2 else none
    | none =>
      match w.deadline with
      | some d => if w.trick.ult trick || (w.trick == trick && d.ult cycle) then some 1 else none
      | none => none

/-- The DUE field of a waiting bundle's revoke: its deadline, else its earliest cycle (R247, log entry 21). -/
def Waiting.due (w : Waiting) : Nat :=
  match w.deadline, w.earliest with
  | some d, _ => d.toNat
  | none, some e => e.toNat
  | none, none => 0

/-- The cause of a release wait of a bundle (R315, R422): a barrier; a collective get or a receive in slot 3; another
schedule wait. -/
def releaseCause (ws : List W64) : Idle :=
  if slotOp (ws.getD 0 0) = 0x71 then .barrier
  else if slotOp (ws.getD 3 0) = 0x19 then .collective else if slotOp (ws.getD 3 0) = 0x11 then .receive else .schedule

/-- The trick in which the next bundle of a core became ready (R113). -/
def State.ownTrick (s : State) (p : PCore) : BitVec 24 :=
  match (s.core p).waiting with | some x => x.trick | none => (s.core p).readySince.getD s.seat.trick

/-- The bundle at the next index as it is ready, with what its slot 0 says: TIME's cycles, TBAR's trick, REND (R113 to
R115). Its trick is the one in which it became ready. -/
def State.readyBundle (s : State) (p : PCore) (ws : List W64) : Waiting :=
  let c := s.core p
  let w := ws.getD 0 0
  let op := slotOp w
  { bundle := BitVec.ofNat 13 c.next,
    earliest := if op = 0x70 ∧ bit w 51 then some (w.extractLsb' 24 24) else none,
    deadline := if op = 0x70 ∧ bit w 50 then some (w.extractLsb' 0 24) else none,
    trick := s.ownTrick p,
    tbar := if op = 0x71 then some (w.extractLsb' 24 24) else none,
    rend := op == 0x72,
    revoked := match c.waiting with | some x => x.revoked | none => false,
    cause := releaseCause ws }

/-- The bundle must wait for its release (R84 cause 3): TIME's earliest cycle in the bundle's own trick (R113), TBAR's
trick (R114). A bundle that is revoked because D < E still waits for E, as R85 says; R116 has a revoked bundle issue as
soon as its register state allows (log entry 70). -/
def Waiting.holds (w : Waiting) (trick cycle : BitVec 24) : Bool :=
  match w.tbar with
  | some t => trick.ult t
  | none => match w.earliest with | some e => w.trick == trick && cycle.ult e | none => false

/-- The bundle of a running core that is ready and has not issued: one that a command has met, else the one that the hand
store holds (R115). -/
def State.readyOf (s : State) (p : PCore) : Option Waiting :=
  let c := s.core p
  match c.waiting with
  | some w => some w
  | none =>
    let ws := c.bundleWords c.next
    if s.canIssue { core := p, lead := true } && c.slotMask.isNone && decide (c.next ≤ 8191) && ws.any (· != 0) then
      some (s.readyBundle p ws)
    else none

/-- The revoke of a ready bundle that has missed its deadline is detected once (R85, R114, R116). -/
def State.detect (s : State) (p : PCore) : State :=
  match s.readyOf p with
  | none => s
  | some w =>
    match w.missed s.seat.trick s.seat.cycle with
    | none => s
    | some kind =>
      let s := s.setCore p { s.core p with waiting := some { w with revoked := true } }
      s.revoke p kind 0 0 false w.due 0 w.bundle

/-! ### Issue (R71, R73, R84) -/

/-- The bundle does not issue: it waits with its cause (R84). -/
def State.hold (s : State) (p : PCore) (w : Waiting) : State := s.setCore p { s.core p with waiting := some w }

/-- The cause of R84 for which a bundle does not issue, the first that applies: a bubble, its release, a full array queue, a
pending register or range, a full transfer queue. `own` is what keeps the instruction itself waiting. -/
def State.stall (s : State) (p : PCore) (slot : Nat) (ws : List W64) (own : Option Idle) (w : Waiting) : Option Idle :=
  if s.bubble p then some .bubble
  else if w.holds s.seat.trick s.seat.cycle then some w.cause
  else
    let cs := (List.range 4).filterMap fun j => if j = slot then own else s.slotCause p j (ws.getD j 0)
    [Idle.array, .register, .xferQueue].find? cs.contains

/-- The instructions of a bundle that follow a slot, in slot order. -/
def laterSlots (slot : Nat) (ws : List W64) : List (Nat × W64) :=
  ((List.range 4).map fun j => (j, ws.getD j 0)).filter fun x => decide (slot < x.1) && x.2 != 0

/-- A bundle begins: the sources are captured, the bundle index advances, its other instructions are due (R71, R105). -/
def State.beginBundle (s : State) (p : PCore) (due : List (Nat × W64)) : State :=
  let s := s.flushIssue p
  let c := s.core p
  s.setCore p { c with src := c.regs, bundle := BitVec.ofNat 13 c.next, next := c.next + 1, due, waiting := none,
                       readySince := none, slotMask := some 0 }

/-- The state in which the first instruction of a bundle takes effect: a deadline it has missed is detected (R116), the bundle
has begun, and the instruction is counted. -/
def State.issued (s : State) (p : PCore) (slot : Nat) (ws : List W64) (w : Waiting) : State :=
  (((s.hold p w).detect p).beginBundle p (laterSlots slot ws)).noteIssue p slot (slotOp (ws.getD slot 0))

/-- The state in which a later instruction of a bundle takes effect: it is due no longer, and counted. -/
def State.followed (s : State) (p : PCore) (slot : Nat) (word : W64) : State :=
  (s.setCore p { s.core p with due := (s.core p).due.drop 1 }).noteIssue p slot (slotOp word)

/-- The first instruction of a bundle decides for all of it (R71): flow past bundle 8,191 and an illegal bundle raise
CORE_ILLEGAL (R72); a cause of R84 makes the bundle wait; otherwise it issues and the instruction takes effect. -/
def State.lead (s : State) (p : PCore) (slot : Nat) (word : W64) (own : Option Idle) (eff : State → State) : State :=
  let c := s.core p
  let ws := c.fetched slot word
  let w := s.readyBundle p ws
  if c.next > 8191 then s.illegal p 5 0 8191
  else match s.bundleBad p ws with
    | some x => s.illegal p x.1 x.2 (BitVec.ofNat 13 c.next)
    | none =>
      match s.stall p slot ws own w with
      | some cause => s.hold p { w with cause }
      | none => eff (s.issued p slot ws w)

/-- The issue of an instruction with its slot word: the first of a bundle decides for the bundle; a later one takes effect in
slot order, whatever the bundle's earlier instructions did (R71, R73). -/
def State.issue (s : State) (k : At) (slot : Nat) (word : W64) (own : Option Idle) (eff : State → State) : State :=
  if k.lead then (if s.canIssue k then s.lead k.core slot word own eff else s)
  else if (s.core k.core).due.head? = some (slot, word) then eff (s.followed k.core slot word) else s

/-- An instruction issues, but for what keeps it waiting itself: the first of a bundle that may begin, is legal, is not held
by a bubble, and has no other slot waiting; or the next due instruction of the bundle issued last. -/
def State.fits (s : State) (k : At) (slot : Nat) (word : W64) : Bool :=
  let c := s.core k.core
  let ws := c.fetched slot word
  if k.lead then
    s.canIssue k && decide (c.next ≤ 8191) && (s.bundleBad k.core ws).isNone && !s.bubble k.core
      && (List.range 4).all fun j => j == slot || (s.slotCause k.core j (ws.getD j 0)).isNone
  else c.due.head? == some (slot, word)

end Sys2Proof.Machine
end

