-- ==== Sys2Proof/Machine/Scalar.lean ====
section
/-! DEFINITION. Control flow (R105) and scalar arithmetic (R104, R106) of slot 0. -/

namespace Sys2Proof.Machine

/-- A meaning's answer. -/
abbrev Out := Host.Outcome State Fault Refusal

/-- The state that a command leaves; where it has none, the state it met. -/
def afterOut (o : Out) (s : State) : State := match o with | .next t => t | _ => s

/-! ### Results -/

/-- 1 where a relation holds, else 0. -/
def flag (b : Bool) : W64 := if b then 1 else 0

/-- High 64 bits of the signed 128-bit product. -/
def mulHighS (a b : W64) : W64 := BitVec.ofInt 64 (a.toInt * b.toInt / 2 ^ 64)

/-- High 64 bits of the unsigned 128-bit product. -/
def mulHighU (a b : W64) : W64 := BitVec.ofNat 64 (a.toNat * b.toNat / 2 ^ 64)

/-- Signed quotient truncated toward zero; a divisor of 0 gives all ones, -2^63 by -1 gives -2^63 (R106). -/
def divS (a b : W64) : W64 := if b = 0 then BitVec.allOnes 64 else a.sdiv b

/-- Unsigned quotient; a divisor of 0 gives all ones (R106). -/
def divU (a b : W64) : W64 := if b = 0 then BitVec.allOnes 64 else a / b

/-- Remainder with the sign of the dividend; a divisor of 0 gives the dividend (R106). -/
def remS (a b : W64) : W64 := if b = 0 then a else a.srem b

/-- Unsigned remainder; a divisor of 0 gives the dividend (R106). -/
def remU (a b : W64) : W64 := if b = 0 then a else a % b

/-- An instruction of slot 0 that writes one scalar register: its value and tag come from the source registers. -/
def State.scalarOp (s : State) (k : At) (word : W64) (pg : PReg) (sd : SReg) (res : RegFile → W64 × Bool) : State :=
  s.issue k 0 word none fun s =>
    let r := s.src k.core
    s.putScalar k.core (r.guard pg) sd (res r).1 (res r).2

/-- Two scalar sources; the result is poisoned if either is (R87). -/
def State.scalar2 (s : State) (k : At) (op : Nat) (pg : PReg) (sd sa sb : SReg) (f : W64 → W64 → W64) : State :=
  s.scalarOp k (wordSR op pg sd.val sa.val sb.val 0) pg sd fun r =>
    (f (r.sGet sa) (r.sGet sb), r.sTag sa || r.sTag sb)

/-- One scalar source and a sign-extended immediate. -/
def State.scalarImm (s : State) (k : At) (op : Nat) (pg : PReg) (sd sa : SReg) (imm : BitVec 40)
    (f : W64 → W64 → W64) : State :=
  s.scalarOp k (wordSI op pg sd.val sa.val imm) pg sd fun r => (f (r.sGet sa) (imm.signExtend 64), r.sTag sa)

/-! ### Control flow -/

/-- The transfer is taken: issue goes on at the target after two cycles without a bundle (R75). -/
def State.transfer (s : State) (p : PCore) (target : BitVec 13) : State :=
  (s.setCore p { s.core p with next := target.toNat, owed := 2 }).pmu p 0x02 (fun _ => 1)

/-- A transfer to a target if its condition holds; a poisoned condition or guard makes it a sink of kind 6 that is not
taken (R88, R105). -/
def State.transferIf (s : State) (p : PCore) (g : Guard) (tag cond : Bool) (target : BitVec 13) : State :=
  match g with
  | .off => s
  | .poisoned => s.sink p 6 0
  | .on => if tag then s.sink p 6 0 else if cond then s.transfer p target else s

/-- The condition that COND selects, of a signed value (05 "Control flow"). -/
def brCond (cond : Fin 8) (a : W64) : Bool :=
  match cond.val with
  | 0 => true
  | 1 => a == 0
  | 2 => a != 0
  | 3 => a.slt 0
  | 4 => !a.slt 0
  | 5 => a.sle 0
  | 6 => !a.sle 0
  | _ => false

/-- BR.cc sa, target. -/
def execBr (k : At) (pg : PReg) (cond : Fin 8) (sa : SReg) (target : BitVec 13) (s : State) : Out :=
  .next (s.issue k 0 (wordSB 0x60 pg 0 sa.val cond.val target) none fun s =>
    let r := s.src k.core
    s.transferIf k.core (r.guard pg) (r.sTag sa) (brCond cond (r.sGet sa)) target)

/-- The link value b + 1 (05 "Control flow"). -/
def State.returnIndex (s : State) (p : PCore) : W64 := BitVec.ofNat 64 ((s.core p).bundle.toNat + 1)

/-- JAL sd, target. -/
def execJal (k : At) (pg : PReg) (sd : SReg) (target : BitVec 13) (s : State) : Out :=
  .next (s.issue k 0 (wordSB 0x62 pg sd.val 0 0 target) none fun s =>
    let g := (s.src k.core).guard pg
    (s.putScalar k.core g sd (s.returnIndex k.core) false).transferIf k.core g false true target)

/-- JR sa. -/
def execJr (k : At) (pg : PReg) (sa : SReg) (s : State) : Out :=
  .next (s.issue k 0 (wordSB 0x63 pg 0 sa.val 0 0) none fun s =>
    let r := s.src k.core
    s.transferIf k.core (r.guard pg) (r.sTag sa) true ((r.sGet sa).setWidth 13))

/-- JALR sd, sa: the target is read before the link is written (R105). -/
def execJalr (k : At) (pg : PReg) (sd sa : SReg) (s : State) : Out :=
  .next (s.issue k 0 (wordSB 0x64 pg sd.val sa.val 0 0) none fun s =>
    let r := s.src k.core
    let g := r.guard pg
    (s.putScalar k.core g sd (s.returnIndex k.core) false).transferIf k.core g (r.sTag sa) true ((r.sGet sa).setWidth 13))

/-- LOOP sd, target: the counter is decremented, and stays poisoned where it was (R105). Under a poisoned guard it keeps its
value and is poisoned, as R103 and R446 say of a governed register; R105's "still decremented" is read of the poisoned
counter (log entry 70). -/
def execLoop (k : At) (pg : PReg) (sd : SReg) (target : BitVec 13) (s : State) : Out :=
  .next (s.issue k 0 (wordSB 0x65 pg sd.val 0 0 target) none fun s =>
    let r := s.src k.core
    let g := r.guard pg
    let v := r.sGet sd - 1
    (s.putScalar k.core g sd v (r.sTag sd)).transferIf k.core g (r.sTag sd) (v != 0) target)

/-! ### Scalar arithmetic -/

/-- ADD: sd := sa + sb modulo 2^64. -/
def execAdd (k : At) (pg : PReg) (sd sa sb : SReg) (s : State) : Out :=
  .next (s.scalar2 k 0x01 pg sd sa sb fun a b => a + b)

/-- SUB: sd := sa - sb modulo 2^64. -/
def execSub (k : At) (pg : PReg) (sd sa sb : SReg) (s : State) : Out :=
  .next (s.scalar2 k 0x02 pg sd sa sb fun a b => a - b)

/-- MUL: low 64 bits of the product. -/
def execMul (k : At) (pg : PReg) (sd sa sb : SReg) (s : State) : Out :=
  .next (s.scalar2 k 0x03 pg sd sa sb fun a b => a * b)

/-- MULH: high 64 bits of the signed product. -/
def execMulh (k : At) (pg : PReg) (sd sa sb : SReg) (s : State) : Out :=
  .next (s.scalar2 k 0x04 pg sd sa sb fun a b => mulHighS a b)

/-- MULHU: high 64 bits of the unsigned product. -/
def execMulhu (k : At) (pg : PReg) (sd sa sb : SReg) (s : State) : Out :=
  .next (s.scalar2 k 0x05 pg sd sa sb fun a b => mulHighU a b)

/-- DIV: signed quotient (R106). -/
def execDiv (k : At) (pg : PReg) (sd sa sb : SReg) (s : State) : Out :=
  .next (s.scalar2 k 0x06 pg sd sa sb fun a b => divS a b)

/-- DIVU: unsigned quotient (R106). -/
def execDivu (k : At) (pg : PReg) (sd sa sb : SReg) (s : State) : Out :=
  .next (s.scalar2 k 0x07 pg sd sa sb fun a b => divU a b)

/-- REM: signed remainder (R106). -/
def execRem (k : At) (pg : PReg) (sd sa sb : SReg) (s : State) : Out :=
  .next (s.scalar2 k 0x08 pg sd sa sb fun a b => remS a b)

/-- REMU: unsigned remainder (R106). -/
def execRemu (k : At) (pg : PReg) (sd sa sb : SReg) (s : State) : Out :=
  .next (s.scalar2 k 0x09 pg sd sa sb fun a b => remU a b)

/-- AND. -/
def execAnd (k : At) (pg : PReg) (sd sa sb : SReg) (s : State) : Out :=
  .next (s.scalar2 k 0x0A pg sd sa sb fun a b => a &&& b)

/-- OR. -/
def execOr (k : At) (pg : PReg) (sd sa sb : SReg) (s : State) : Out :=
  .next (s.scalar2 k 0x0B pg sd sa sb fun a b => a ||| b)

/-- XOR. -/
def execXor (k : At) (pg : PReg) (sd sa sb : SReg) (s : State) : Out :=
  .next (s.scalar2 k 0x0C pg sd sa sb fun a b => a ^^^ b)

/-- SHL: by bits [5:0] of sb (R106). -/
def execShl (k : At) (pg : PReg) (sd sa sb : SReg) (s : State) : Out :=
  .next (s.scalar2 k 0x0D pg sd sa sb fun a b => a <<< (b.toNat % 64))

/-- SHR: logical (R106). -/
def execShr (k : At) (pg : PReg) (sd sa sb : SReg) (s : State) : Out :=
  .next (s.scalar2 k 0x0E pg sd sa sb fun a b => a >>> (b.toNat % 64))

/-- SRA: arithmetic (R106). -/
def execSra (k : At) (pg : PReg) (sd sa sb : SReg) (s : State) : Out :=
  .next (s.scalar2 k 0x0F pg sd sa sb fun a b => a.sshiftRight (b.toNat % 64))

/-- MIN: signed. -/
def execMin (k : At) (pg : PReg) (sd sa sb : SReg) (s : State) : Out :=
  .next (s.scalar2 k 0x10 pg sd sa sb fun a b => if a.sle b then a else b)

/-- MAX: signed. -/
def execMax (k : At) (pg : PReg) (sd sa sb : SReg) (s : State) : Out :=
  .next (s.scalar2 k 0x11 pg sd sa sb fun a b => if a.sle b then b else a)

/-- MINU: unsigned. -/
def execMinu (k : At) (pg : PReg) (sd sa sb : SReg) (s : State) : Out :=
  .next (s.scalar2 k 0x12 pg sd sa sb fun a b => if a.ule b then a else b)

/-- MAXU: unsigned. -/
def execMaxu (k : At) (pg : PReg) (sd sa sb : SReg) (s : State) : Out :=
  .next (s.scalar2 k 0x13 pg sd sa sb fun a b => if a.ule b then b else a)

/-- CMP.EQ. -/
def execCmpEq (k : At) (pg : PReg) (sd sa sb : SReg) (s : State) : Out :=
  .next (s.scalar2 k 0x40 pg sd sa sb fun a b => flag (a == b))

/-- CMP.NE. -/
def execCmpNe (k : At) (pg : PReg) (sd sa sb : SReg) (s : State) : Out :=
  .next (s.scalar2 k 0x41 pg sd sa sb fun a b => flag (a != b))

/-- CMP.LT: signed. -/
def execCmpLt (k : At) (pg : PReg) (sd sa sb : SReg) (s : State) : Out :=
  .next (s.scalar2 k 0x42 pg sd sa sb fun a b => flag (a.slt b))

/-- CMP.GE: signed. -/
def execCmpGe (k : At) (pg : PReg) (sd sa sb : SReg) (s : State) : Out :=
  .next (s.scalar2 k 0x43 pg sd sa sb fun a b => flag (b.sle a))

/-- CMP.LTU: unsigned. -/
def execCmpLtu (k : At) (pg : PReg) (sd sa sb : SReg) (s : State) : Out :=
  .next (s.scalar2 k 0x44 pg sd sa sb fun a b => flag (a.ult b))

/-- CMP.GEU: unsigned. -/
def execCmpGeu (k : At) (pg : PReg) (sd sa sb : SReg) (s : State) : Out :=
  .next (s.scalar2 k 0x45 pg sd sa sb fun a b => flag (b.ule a))

/-- ADDI. -/
def execAddi (k : At) (pg : PReg) (sd sa : SReg) (imm : BitVec 40) (s : State) : Out :=
  .next (s.scalarImm k 0x21 pg sd sa imm fun a b => a + b)

/-- MULI: low 64 bits. -/
def execMuli (k : At) (pg : PReg) (sd sa : SReg) (imm : BitVec 40) (s : State) : Out :=
  .next (s.scalarImm k 0x23 pg sd sa imm fun a b => a * b)

/-- ANDI. -/
def execAndi (k : At) (pg : PReg) (sd sa : SReg) (imm : BitVec 40) (s : State) : Out :=
  .next (s.scalarImm k 0x2A pg sd sa imm fun a b => a &&& b)

/-- ORI. -/
def execOri (k : At) (pg : PReg) (sd sa : SReg) (imm : BitVec 40) (s : State) : Out :=
  .next (s.scalarImm k 0x2B pg sd sa imm fun a b => a ||| b)

/-- XORI. -/
def execXori (k : At) (pg : PReg) (sd sa : SReg) (imm : BitVec 40) (s : State) : Out :=
  .next (s.scalarImm k 0x2C pg sd sa imm fun a b => a ^^^ b)

/-- SHLI: by IMM[5:0] (R106). -/
def execShli (k : At) (pg : PReg) (sd sa : SReg) (imm : BitVec 40) (s : State) : Out :=
  .next (s.scalarImm k 0x2D pg sd sa imm fun a b => a <<< (b.toNat % 64))

/-- SHRI: by IMM[5:0] (R106). -/
def execShri (k : At) (pg : PReg) (sd sa : SReg) (imm : BitVec 40) (s : State) : Out :=
  .next (s.scalarImm k 0x2E pg sd sa imm fun a b => a >>> (b.toNat % 64))

/-- SRAI: by IMM[5:0] (R106). -/
def execSrai (k : At) (pg : PReg) (sd sa : SReg) (imm : BitVec 40) (s : State) : Out :=
  .next (s.scalarImm k 0x2F pg sd sa imm fun a b => a.sshiftRight (b.toNat % 64))

/-- SEL: sd := (sc is not 0) ? sa : sb; only the condition and the selected operand contribute poison (R87). -/
def execSel (k : At) (pg : PReg) (sd sa sb sc : SReg) (s : State) : Out :=
  .next (s.scalarOp k (wordSR 0x14 pg sd.val sa.val sb.val sc.val) pg sd fun r =>
    if r.sGet sc != 0 then (r.sGet sa, r.sTag sc || r.sTag sa) else (r.sGet sb, r.sTag sc || r.sTag sb))

/-- LI: sd := IMM sign-extended from bit 45. -/
def execLi (k : At) (pg : PReg) (sd : SReg) (imm : BitVec 46) (s : State) : Out :=
  .next (s.scalarOp k (wordSL 0x30 pg sd.val imm) pg sd fun _ => (imm.signExtend 64, false))

/-- LIH: sd[63:46] := IMM[17:0]; sd[45:0] unchanged. -/
def execLih (k : At) (pg : PReg) (sd : SReg) (imm : BitVec 46) (s : State) : Out :=
  .next (s.scalarOp k (wordSL 0x31 pg sd.val imm) pg sd fun r =>
    (setFld (r.sGet sd) 63 46 imm.toNat, r.sTag sd))

end Sys2Proof.Machine
end

