-- ==== Sys2Proof/Machine/Vector.lean ====
section
/-! DEFINITION. Vector arithmetic of slot 1 (R104, R117): float and integer lanes. -/

namespace Sys2Proof.Machine

/-- A lane-wise instruction of slot 1 with lanes of width w (R68, R87, R103). -/
def State.lanesOp (s : State) (k : At) (op : Nat) (f : VForm) (w : Nat) (new : RegFile → Nat → Nat × Bool) : State :=
  s.issue k 1 (f.word op) none fun s => s.putLanes k.core f.pg f.vd w (new (s.src k.core))

/-! ### Float lanes (R117) -/

/-- The rounding mode of vector float arithmetic: SR and the reserved codes round as RNE (R117). -/
def arithRm (rm : BitVec 3) : Rm :=
  match Rm.ofCode rm.toNat with
  | .sr => .rne
  | .reserved => .rne
  | m => m

/-- SR or a reserved code in RM sets CONV_INVALID (R117). -/
def State.rmFlag (s : State) (p : PCore) (f : VForm) : State :=
  if f.rm.toNat ≥ 4 then s.orReg (Reg.CORE_NUM_FLAGS p) 4 else s

/-- Lane k of source VA with its tag. -/
def VForm.laneA (f : VForm) (r : RegFile) (w k : Nat) : Nat × Bool := (lane (r.vGet f.va) w k, laneTag (r.vTag f.va) w k)

/-- Lane k of source VC with its tag. -/
def VForm.laneC (f : VForm) (r : RegFile) (w k : Nat) : Nat × Bool := (lane (r.vGet f.vc) w k, laneTag (r.vTag f.vc) w k)

/-- The float format in FMT. -/
def VForm.flt (f : VForm) : Fmt := floatFmt f.fmt.toNat

/-- A float instruction that rounds with RM: lane results of operands a, b and c. -/
def State.floatOp (s : State) (k : At) (op : Nat) (f : VForm) (useC : Bool) (g : Rm → Num → Num → Num → Num) : State :=
  s.issue k 1 (f.word op) none fun s =>
    let fm := f.flt
    let rm := arithRm f.rm
    let r := s.src k.core
    (s.rmFlag k.core f).putLanes k.core f.pg f.vd fm.width fun i =>
      let a := f.laneA r fm.width i
      let b := f.laneB r fm.width i
      let c := if useC then f.laneC r fm.width i else (0, false)
      ((g rm (Num.ofFloat fm a.1) (Num.ofFloat fm b.1) (Num.ofFloat fm c.1)).round fm rm, a.2 || b.2 || c.2)

/-- VADD.f. -/
def execVaddF (k : At) (f : VForm) (s : State) : Out := .next (s.floatOp k 0x01 f false fun rm a b _ => a.add (rm == .rdn) b)

/-- VSUB.f. -/
def execVsubF (k : At) (f : VForm) (s : State) : Out :=
  .next (s.floatOp k 0x02 f false fun rm a b _ => a.add (rm == .rdn) b.negate)

/-- VMUL.f. -/
def execVmulF (k : At) (f : VForm) (s : State) : Out := .next (s.floatOp k 0x03 f false fun _ a b _ => a.mul b)

/-- VFMA.f: a x b + c with one rounding. -/
def execVfmaF (k : At) (f : VForm) (s : State) : Out :=
  .next (s.floatOp k 0x04 f true fun rm a b c => (a.mul b).add (rm == .rdn) c)

/-- A lane-wise instruction of two float operands that rounds nothing. -/
def State.floatBits (s : State) (k : At) (op : Nat) (f : VForm) (g : Fmt → Nat → Nat → Nat) : State :=
  s.lanesOp k op f f.flt.width fun r i =>
    let a := f.laneA r f.flt.width i
    let b := f.laneB r f.flt.width i
    (g f.flt a.1 b.1, a.2 || b.2)

/-- VMIN.f. -/
def execVminF (k : At) (f : VForm) (s : State) : Out := .next (s.floatBits k 0x06 f fun m a b => minMaxF m false a b)

/-- VMAX.f. -/
def execVmaxF (k : At) (f : VForm) (s : State) : Out := .next (s.floatBits k 0x07 f fun m a b => minMaxF m true a b)

/-- The sign bit of a float encoding changed; a NaN gives the canonical NaN (R117). -/
def signOp (m : Fmt) (clear : Bool) (a : Nat) : Nat :=
  let top := 2 ^ (m.width - 1)
  if (Num.ofFloat m a).isNan then m.nanCode else if clear then a % top else if a < top then a + top else a - top

/-- A lane-wise instruction of one float operand. -/
def State.float1 (s : State) (k : At) (op : Nat) (f : VForm) (g : Fmt → Nat → Nat) : State :=
  s.lanesOp k op f f.flt.width fun r i => let a := f.laneA r f.flt.width i; (g f.flt a.1, a.2)

/-- VABS.f. -/
def execVabsF (k : At) (f : VForm) (s : State) : Out := .next (s.float1 k 0x08 f fun m a => signOp m true a)

/-- VNEG.f. -/
def execVnegF (k : At) (f : VForm) (s : State) : Out := .next (s.float1 k 0x09 f fun m a => signOp m false a)

/-! ### Integer lanes (R104) -/

/-- A lane-wise instruction of two integer operands of the width that W selects. -/
def State.intOp (s : State) (k : At) (op : Nat) (f : VForm) (g : Nat → Nat → Nat → Nat) : State :=
  s.lanesOp k op f (widthOfW f.w) fun r i =>
    let a := f.laneA r (widthOfW f.w) i
    let b := f.laneB r (widthOfW f.w) i
    (g (widthOfW f.w) a.1 b.1, a.2 || b.2)

/-- VADD.Iw: wrapping. -/
def execVaddI (k : At) (f : VForm) (s : State) : Out := .next (s.intOp k 0x11 f fun w a b => (a + b) % 2 ^ w)

/-- VSUB.Iw: wrapping. -/
def execVsubI (k : At) (f : VForm) (s : State) : Out := .next (s.intOp k 0x12 f fun w a b => (a + 2 ^ w - b) % 2 ^ w)

/-- VMUL.Iw: low half of the product. -/
def execVmulI (k : At) (f : VForm) (s : State) : Out := .next (s.intOp k 0x13 f fun w a b => a * b % 2 ^ w)

/-- VMIN.Iw: signed. -/
def execVminI (k : At) (f : VForm) (s : State) : Out := .next (s.intOp k 0x16 f fun w a b => if signed w a ≤ signed w b then a else b)

/-- VMAX.Iw: signed. -/
def execVmaxI (k : At) (f : VForm) (s : State) : Out := .next (s.intOp k 0x17 f fun w a b => if signed w a ≤ signed w b then b else a)

/-- VAND.Iw. -/
def execVand (k : At) (f : VForm) (s : State) : Out := .next (s.intOp k 0x18 f fun _ a b => Nat.land a b)

/-- VOR.Iw. -/
def execVor (k : At) (f : VForm) (s : State) : Out := .next (s.intOp k 0x19 f fun _ a b => Nat.lor a b)

/-- VXOR.Iw. -/
def execVxor (k : At) (f : VForm) (s : State) : Out := .next (s.intOp k 0x1A f fun _ a b => Nat.xor a b)

/-- VSHL.Iw: by b modulo the lane width. -/
def execVshl (k : At) (f : VForm) (s : State) : Out := .next (s.intOp k 0x1B f fun w a b => a * 2 ^ (b % w) % 2 ^ w)

/-- VSHR.Iw: logical. -/
def execVshr (k : At) (f : VForm) (s : State) : Out := .next (s.intOp k 0x1C f fun w a b => a / 2 ^ (b % w))

/-- VSRA.Iw: arithmetic. -/
def execVsra (k : At) (f : VForm) (s : State) : Out := .next (s.intOp k 0x1D f fun w a b => unsigned w (signed w a / 2 ^ (b % w)))

end Sys2Proof.Machine
end

