-- ==== Sys2Proof/Machine/Convert.lean ====
section
/-! DEFINITION. Conversions of slot 1 (03 R46 to R53; 05 R119 to R122) and the activation instruction (R123). -/

namespace Sys2Proof.Machine

/-! ### Elements of a register (R119) -/

/-- The tags of the groups that bits [lo + n - 1:lo] of a register touch, together (R86). -/
def spanTag (tags : BitVec 32) (lo n : Nat) : Bool :=
  (List.range ((lo + n - 1) / 32 + 1 - lo / 32)).any fun i => tags.getLsbD (lo / 32 + i)

/-- Where the elements of a conversion lie: N elements, source and destination widths and bit offsets, and the bits of
VD that are written (R119). -/
structure ConvShape where
  n : Nat
  ws : Nat
  wd : Nat
  so : Nat
  lo : Nat
  hi : Nat
  deriving DecidableEq, Repr

/-- The shape of VCVT, VQ and VDQ (R119). -/
def VXForm.shape (f : VXForm) : ConvShape :=
  let ws := widthOfCode f.fmts.toNat
  let wd := widthOfCode f.fmtd.toNat
  let n := convCount ws wd
  let part := f.part.toNat * (n * min ws wd)
  if wd < ws then { n, ws, wd, so := 0, lo := part, hi := part + n * wd }
  else { n, ws, wd, so := if ws < wd then part else 0, lo := 0, hi := 1024 }

/-- A destination register with elements of width wd written from bit lo, and zeros above them up to bit hi; a group
written in full takes the tags written, one written in part adds them to its own (R86). -/
def writeElems (old : Vec) (tags : BitVec 32) (wd lo hi : Nat) (xs : List (Nat × Bool)) : Vec × BitVec 32 :=
  let v := setFld old (hi - 1) lo (packNat wd (xs.map (·.1)))
  let ts := (xs.mapIdx fun i x => (lo + i * wd, x.2)).filter (·.2)
  let t := (List.range 32).map fun g =>
    let hit := ts.any fun q => decide (q.1 < 32 * g + 32 ∧ 32 * g < q.1 + wd)
    let full := decide (lo ≤ 32 * g ∧ 32 * g + 32 ≤ hi)
    ofBool (hit || (!full && tags.getLsbD g))
  (v, BitVec.ofNat 32 (packNat 1 t))

/-- The source elements of a conversion with their tags. -/
def VXForm.elems (f : VXForm) (r : RegFile) : List (Nat × Bool) :=
  let h := f.shape
  (List.range h.n).map fun i =>
    (((r.vGet f.va).extractLsb' (h.so + i * h.ws) h.ws).toNat, spanTag (r.vTag f.va) (h.so + i * h.ws) h.ws)

/-- The random value of element l: index s[SX] + l of stream STREAM (R53, R122). -/
def VXForm.rand (f : VXForm) (s : State) (p : PCore) (l : Nat) : Nat :=
  s.random p f.stream.toNat ((s.src p).sGet f.sx + BitVec.ofNat 64 l)

/-- A poisoned s[SX] poisons every lane under RM = SR (R120, R87). -/
def VXForm.srTag (f : VXForm) (r : RegFile) : Bool := f.rm == 4 && r.sTag f.sx

/-- A conversion's results written to VD, and its flags and events (R119, R66). -/
def State.putConv (s : State) (p : PCore) (f : VXForm) (extra : Bool) (ys : List (Nat × Bool)) (fl : ConvFlags) : State :=
  let h := f.shape
  let s := s.mapRegs p fun q =>
    let w := writeElems (q.vGet f.vd) (q.vTag f.vd) h.wd h.lo h.hi (ys.map fun y => (y.1, y.2 || extra))
    q.vPut f.vd w.1 w.2
  s.numFlags p fl.mask 0 1 (s.core p).bundle

/-- The source and destination formats. -/
def VXForm.src (f : VXForm) : Fmt := (Fmt.ofCode f.fmts.toNat).getD .f32
def VXForm.dst (f : VXForm) : Fmt := (Fmt.ofCode f.fmtd.toNat).getD .f32

/-- VCVT.s.d (R119, R120). -/
def execVcvt (k : At) (f : VXForm) (s : State) : Out :=
  .next (s.issue k 1 (f.word 0x30) none fun s =>
    let p := k.core
    let r := s.src p
    let cs := (f.elems r).mapIdx fun l x =>
      ((Num.decode f.src x.1).conv f.dst (Rm.ofCode f.rm.toNat) (f.rand s p l) f.sat, x.2)
    s.putConv p f (f.srTag r) (cs.map fun c => (c.1.code, c.2)) (cs.foldl (fun a c => a.or c.1.flags) {}))

/-! ### Block quantisation (R48, R120) -/

/-- floor(log2) of the largest magnitude of a block; none where every element is zero. -/
def blockLog : List Num → Option Int
  | [] => none
  | .fin _ m e :: xs =>
    let here : Option Int := if m = 0 then none else some ((Nat.log2 m : Int) + e)
    match here, blockLog xs with
    | some a, some b => some (max a b)
    | some a, none => some a
    | none, b => b
  | _ :: xs => blockLog xs

/-- A value divided by 2^X. -/
def Num.scaleDown (x : Num) (e : Int) : Num :=
  match x with
  | .fin s m g => .fin s m (g - e)
  | y => y

/-- A quantised block (R48): the scale code, the elements, and the flags it sets. -/
def quantBlock (d : Fmt) (rm : Rm) (rand : Nat → Nat) (xs : List Num) : Nat × List Nat × ConvFlags :=
  if xs.any fun x => !x.isFin then (0xFF, xs.map fun _ => 0, { invalid := true })
  else
    let (code, e) : Nat × Int := match blockLog xs with
      | none => (0, 0)
      | some l => let X := max (-127) (min 127 (l - d.emax)); ((X + 127).toNat, X)
    let cs := xs.mapIdx fun i x => (x.scaleDown e).conv d rm (rand i) true
    (code, cs.map (·.code), cs.foldl (fun a c => a.or { c.flags with ovf := false }) {})

/-- The blocks of a list, n elements each. -/
def chunks {α : Type} (n : Nat) : Nat → List α → List (List α)
  | 0, _ => []
  | m + 1, xs => xs.take n :: chunks n m (xs.drop n)

/-- VQ.s.d (R48, R120): the elements go to VD, the scale of block j to byte j of s[SS]; s[SS] is poisoned when a source
element is. Every element depends on the largest magnitude of its block, so one poisoned element poisons its block (R87). -/
def execVq (k : At) (f : VXForm) (s : State) : Out :=
  .next (s.issue k 1 (f.word 0x31) none fun s =>
    let p := k.core
    let r := s.src p
    let xs := f.elems r
    let b := if f.b16 then 16 else 32
    let bs := chunks b (ceilDiv xs.length b) xs
    let qs := bs.mapIdx fun j x =>
      quantBlock f.dst (Rm.ofCode f.rm.toNat) (fun i => f.rand s p (j * b + i)) (x.map fun e => Num.decode f.src e.1)
    let codes := qs.flatMap (·.2.1)
    let tags := bs.flatMap fun x => x.map fun _ => x.any (·.2)
    let ys := codes.zip tags
    let s := s.putConv p f (f.srTag r) ys (qs.foldl (fun a q => a.or q.2.2) {})
    s.mapRegs p fun q => q.sPut f.ss (BitVec.ofNat 64 (packNat 8 (qs.map (·.1)))) (xs.any (·.2)))

/-- VDQ.s.d (R120): each element times its block's scale, then converted; a scale of 0xFF makes its elements NaN and
sets SCALE_NAN (R47). A poisoned s[SS] poisons every lane (R87). -/
def execVdq (k : At) (f : VXForm) (s : State) : Out :=
  .next (s.issue k 1 (f.word 0x32) none fun s =>
    let p := k.core
    let r := s.src p
    let b := if f.b16 then 16 else 32
    let cs := (f.elems r).mapIdx fun l x =>
      let sc := lane (r.sGet f.ss) 8 (l / b)
      let c := ((Num.decode f.src x.1).mul (Num.ofScale sc)).conv f.dst (Rm.ofCode f.rm.toNat) (f.rand s p l) f.sat
      (if sc = 255 then (f.dst.nanCode, { c.flags with scaleNan := true }) else (c.code, c.flags), x.2)
    s.putConv p f (f.srTag r || r.sTag f.ss) (cs.map fun c => (c.1.1, c.2)) (cs.foldl (fun a c => a.or c.1.2) {}))

/-! ### Ternary packing (R44, R121) -/

/-- Five ternary elements as a byte (R44). -/
def ternByte : List Int → Nat
  | [] => 0
  | t :: ts => (t + 1).toNat + 3 * ternByte ts

/-- The five elements of a ternary byte; 243 to 255 decode as five zeros (R44). -/
def ternDigits (b : Nat) : List Int :=
  if b ≥ 243 then [0, 0, 0, 0, 0] else (List.range 5).map fun i => (b / 3 ^ i % 3 : Nat) - (1 : Int)

/-- The partner of an even vector register. -/
def pairOf (v : VReg) : VReg := ⟨(v.val + 1) % 32, by omega⟩

/-- VTPACK (R121): INT8 lanes 0 to 159 of the pair va, va + 1, clamped to -1 to +1, packed into 32 bytes of VD. A value
changed by the clamp sets CONV_OVF alone: R121 names that flag, and does not say whether R51's CONV_INEXACT follows (log
entry 70). -/
def execVtpack (k : At) (f : VXForm) (s : State) : Out :=
  .next (s.issue k 1 (f.word 0x33) none fun s =>
    let p := k.core
    let r := s.src p
    let get : Nat → Int × Bool := fun i =>
      let v := if i < 128 then f.va else pairOf f.va
      (signed 8 (lane (r.vGet v) 8 (i % 128)), laneTag (r.vTag v) 8 (i % 128))
    let byte : Nat → Nat × Bool := fun j =>
      let xs := (List.range 5).map fun i => get (5 * j + i)
      (ternByte (xs.map fun x => max (-1) (min 1 x.1)), xs.any (·.2))
    let ovf := (List.range 160).any fun i => decide ((get i).1 < -1 ∨ 1 < (get i).1)
    let lo := 256 * f.part.toNat
    let s := s.mapRegs p fun q =>
      let w := writeElems (q.vGet f.vd) (q.vTag f.vd) 8 lo (lo + 256) ((List.range 32).map byte)
      q.vPut f.vd w.1 w.2
    s.numFlags p { ovf : ConvFlags }.mask 0 1 (s.core p).bundle)

/-- VTUNPK (R121): 32 ternary bytes at part PART of va into INT8 lanes of the pair vd, vd + 1; lanes 32 to 127 of
vd + 1 become zero. -/
def execVtunpk (k : At) (f : VXForm) (s : State) : Out :=
  .next (s.issue k 1 (f.word 0x34) none fun s =>
    let p := k.core
    let r := s.src p
    let bytes := (List.range 32).map fun j => (lane (r.vGet f.va) 8 (32 * f.part.toNat + j),
      laneTag (r.vTag f.va) 8 (32 * f.part.toNat + j))
    let xs := bytes.flatMap fun b => (ternDigits b.1).map fun t => (unsigned 8 t, b.2)
    let s := s.mapRegs p fun q =>
      let a := writeElems 0 0 8 0 1024 (xs.take 128)
      let b := writeElems 0 0 8 0 1024 (xs.drop 128)
      (q.vPut f.vd a.1 a.2).vPut (pairOf f.vd) b.1 b.2
    s.numFlags p { tern := bytes.any fun b => decide (b.1 ≥ 243) : ConvFlags }.mask 0 1 (s.core p).bundle)

/-! ### Activation (R123) -/

/-- An activation table as bytes from its first, by a byte reader: the FP32 value at an offset. -/
def tableWord (rd : Nat → Byte) (o : Nat) : Nat :=
  (rd o).toNat + 2 ^ 8 * (rd (o + 1)).toNat + 2 ^ 16 * (rd (o + 2)).toNat + 2 ^ 24 * (rd (o + 3)).toNat

/-- The table's value at x, in FP32, and the segment used; none where the result is the canonical NaN (R123). -/
def actEval (rd : Nat → Byte) (x : Num) : Option (Nat × Nat) :=
  let u := rne32 ((num32 (rne32 (x.add false (num32 (tableWord rd 0)).negate))).mul (num32 (tableWord rd 4)))
  match num32 u with
  | .nan => none
  | v =>
    let i : Nat := match v with
      | .inf true => 0
      | .inf false => 63
      | w => (max 0 (min 63 w.floor)).toNat
    let o := 32 + 16 * i
    let t := rne32 (x.add false (num32 (tableWord rd o)).negate)
    let inner := add32 (tableWord rd (o + 8)) (mul32 t (tableWord rd (o + 12)))
    some (add32 (tableWord rd (o + 4)) (mul32 t inner), i)

/-- VACT.f (R123, R446). -/
def execVact (k : At) (f : VForm) (s : State) : Out :=
  .next (s.issue k 1 (f.word 0x38) (s.vactBlocked k.core f) fun s =>
    let p := k.core
    let r := s.src p
    let fm := f.flt
    let a := r.sGet f.sx + f.imm.signExtend 64 * 32
    if r.pTag f.pg then s.putLanes p f.pg f.vd fm.width fun _ => (0, false)
    else if r.sTag f.sx then (s.sink p 5 1).putLanes p f.pg f.vd fm.width fun _ => (0, true)
    else if a.toNat % 32 = 0 ∧ a.toNat + 1056 ≤ scratchSize then
      let c := s.core p
      let rd := fun o => c.scratch.byte (a.toNat + o)
      let s := (s.scratched p 1 33).noteAddr p 1 0 a
      s.putLanes p f.pg f.vd fm.width fun l =>
        let x := f.laneA r fm.width l
        let v := Num.ofFloat fm x.1
        if v.isNan then (fm.nanCode, x.2)
        else
          let head := c.scratchTag a.toNat
          match actEval rd v with
          | none => (fm.nanCode, x.2 || head)
          | some (y, i) => ((num32 y).round fm .rne, x.2 || head || c.scratchTag (a.toNat + 32 + 16 * i))
    else s.coreAddress p 0 a 1)

end Sys2Proof.Machine
end

