-- ==== Sys2Proof/Machine/Move.lean ====
section
/-! DEFINITION. Compares, selects and lane movement of slot 1 (R118), reductions (R124) and vector scratch access
(R125, R446). -/

namespace Sys2Proof.Machine

/-! ### Compares (R118) -/

/-- The predicate bits that a compare of lanes of width w writes: every bit of each enabled lane (R68, R118). -/
def compareBits (old g : PredBits) (w : Nat) (rel : Nat → Bool) : PredBits :=
  BitVec.ofNat 128 (packNat 1 ((List.range 128).map fun i =>
    let l := i / (w / 8)
    ofBool (if laneOn g w l then rel l else old.getLsbD i)))

/-- A compare into predicate VD. Its tag is the tag of the result, with the old tag too when a lane is disabled (R86,
R118); under a poisoned guard it keeps its value and is poisoned. -/
def State.compare (s : State) (k : At) (op : Nat) (f : VForm) (w : Nat) (rel : Nat → Nat → Bool) : State :=
  s.issue k 1 (f.word op) none fun s =>
    let r := s.src k.core
    let pd : PReg := ⟨f.vd.val % 16, by omega⟩
    if r.pTag f.pg then s.mapRegs k.core fun r => r.pTaint pd
    else
      let g := r.pGet f.pg
      let n := 1024 / w
      let ls := List.range n
      let tag := ls.any fun i => laneOn g w i && ((f.laneA r w i).2 || (f.laneB r w i).2)
      let full := ls.all fun i => laneOn g w i
      s.mapRegs k.core fun q =>
        q.pPut pd (compareBits (q.pGet pd) g w fun i => rel (f.laneA r w i).1 (f.laneB r w i).1)
          (tag || (!full && q.pTag pd))

/-- A float relation of two encodings. -/
def floatRel (m : Fmt) (rel : Num → Num → Bool) (a b : Nat) : Bool := rel (Num.ofFloat m a) (Num.ofFloat m b)

/-- VCMP.EQ.f. -/
def execVcmpEqF (k : At) (f : VForm) (s : State) : Out :=
  .next (s.compare k 0x20 f f.flt.width (floatRel f.flt fun a b => a.eq b))

/-- VCMP.NE.f: true with a NaN input. -/
def execVcmpNeF (k : At) (f : VForm) (s : State) : Out :=
  .next (s.compare k 0x21 f f.flt.width (floatRel f.flt fun a b => !a.eq b))

/-- VCMP.LT.f. -/
def execVcmpLtF (k : At) (f : VForm) (s : State) : Out :=
  .next (s.compare k 0x22 f f.flt.width (floatRel f.flt fun a b => a.lt b))

/-- VCMP.LE.f. -/
def execVcmpLeF (k : At) (f : VForm) (s : State) : Out :=
  .next (s.compare k 0x23 f f.flt.width (floatRel f.flt fun a b => a.lt b || a.eq b))

/-- VCMP.EQ.Iw. -/
def execVcmpEqI (k : At) (f : VForm) (s : State) : Out :=
  .next (s.compare k 0x24 f (widthOfW f.w) fun a b => a == b)

/-- VCMP.NE.Iw. -/
def execVcmpNeI (k : At) (f : VForm) (s : State) : Out :=
  .next (s.compare k 0x25 f (widthOfW f.w) fun a b => a != b)

/-- VCMP.LT.Iw: signed. -/
def execVcmpLtI (k : At) (f : VForm) (s : State) : Out :=
  .next (s.compare k 0x26 f (widthOfW f.w) fun a b => decide (signed (widthOfW f.w) a < signed (widthOfW f.w) b))

/-- VCMP.LE.Iw: signed. -/
def execVcmpLeI (k : At) (f : VForm) (s : State) : Out :=
  .next (s.compare k 0x27 f (widthOfW f.w) fun a b => decide (signed (widthOfW f.w) a ≤ signed (widthOfW f.w) b))

/-! ### Select and movement (R118) -/

/-- The lane width of VSEL and VBCAST: W when FMT is 0, else 16 (R118). -/
def VForm.moveWidth (f : VForm) : Nat := if f.fmt = 0 then widthOfW f.w else 16

/-- VSEL: vd := pc ? a : b per lane; the predicate's tag reaches every lane, a source's only the lanes that select it
(R87). -/
def execVsel (k : At) (f : VForm) (s : State) : Out :=
  .next (s.lanesOp k 0x28 f f.moveWidth fun r i =>
    let w := f.moveWidth
    let pc : PReg := ⟨f.vc.val % 16, by omega⟩
    let x := if laneOn (r.pGet pc) w i then f.laneA r w i else f.laneB r w i
    (x.1, r.pTag pc || x.2))

/-- VBCAST: every lane := the low lane-width bits of s[SX]. -/
def execVbcast (k : At) (f : VForm) (s : State) : Out :=
  .next (s.lanesOp k 0x29 f f.moveWidth fun r _ => ((r.sGet f.sx).toNat % 2 ^ f.moveWidth, r.sTag f.sx))

/-- VPERM.Iw: vd[i] := va[vb[i] mod lanes]; the index and the lane it names both contribute (R87). -/
def execVperm (k : At) (f : VForm) (s : State) : Out :=
  .next (s.lanesOp k 0x2A f (widthOfW f.w) fun r i =>
    let w := widthOfW f.w
    let j := lane (r.vGet f.vb) w i % (1024 / w)
    let a := f.laneA r w j
    (a.1, a.2 || laneTag (r.vTag f.vb) w i))

/-- VEXT.Iw: s[SX] := lane IMM of va, zero-extended, if the guard bit of that lane is 1 (R118). -/
def execVext (k : At) (f : VForm) (s : State) : Out :=
  .next (s.issue k 1 (f.word 0x2B) none fun s =>
    let r := s.src k.core
    let w := widthOfW f.w
    let i := f.imm.toNat % 128
    if r.pTag f.pg then s.mapRegs k.core fun q => q.sTaint f.sx
    else if laneOn (r.pGet f.pg) w i then
      s.mapRegs k.core fun q => q.sPut f.sx (BitVec.ofNat 64 (f.laneA r w i).1) (f.laneA r w i).2
    else s)

/-- VINS.Iw: vd := va with lane IMM := the low bits of s[SX]; a poisoned s[SX] poisons every lane (R87). -/
def execVins (k : At) (f : VForm) (s : State) : Out :=
  .next (s.lanesOp k 0x2C f (widthOfW f.w) fun r i =>
    let w := widthOfW f.w
    if i = f.imm.toNat % 128 then ((r.sGet f.sx).toNat % 2 ^ w, r.sTag f.sx)
    else ((f.laneA r w i).1, (f.laneA r w i).2 || r.sTag f.sx))

/-! ### Reductions (R124) -/

/-- One level of the fixed pairwise tree. -/
def pairUp (combine : Nat → Nat → Nat) : List Nat → List Nat
  | a :: b :: xs => combine a b :: pairUp combine xs
  | xs => xs

/-- The fixed pairwise tree over 2^n values. -/
def treeFold (combine : Nat → Nat → Nat) : Nat → List Nat → Nat
  | 0, xs => xs.headD 0
  | n + 1, xs => treeFold combine n (pairUp combine xs)

/-- A reduction of the lanes of va that the guard enables into lane 0 of vd, zero elsewhere, whatever the guard; its
result is poisoned if an enabled lane is, and every group under a poisoned guard (R124). -/
def State.reduce (s : State) (k : At) (op : Nat) (f : VForm) (w : Nat) (ident : Nat) (load : Nat → Nat)
    (combine : Nat → Nat → Nat) : State :=
  s.issue k 1 (f.word op) none fun s =>
    let r := s.src k.core
    let g := r.pGet f.pg
    let n := 1024 / w
    let xs := (List.range n).map fun i => if laneOn g w i then load (f.laneA r w i).1 else ident
    let tag := (List.range n).any fun i => laneOn g w i && (f.laneA r w i).2
    let tags : BitVec 32 := if r.pTag f.pg then BitVec.allOnes 32 else if tag then 1 else 0
    s.mapRegs k.core fun q => q.vPut f.vd (BitVec.ofNat 1024 (treeFold combine (Nat.log2 n) xs)) tags

/-- VRED.ADD.f: lanes converted exactly to FP32, summed with one RNE rounding per add. -/
def execVredAddF (k : At) (f : VForm) (s : State) : Out :=
  .next (s.reduce k 0x3C f f.flt.width 0 (fun x => rne32 (Num.ofFloat f.flt x)) add32)

/-- VRED.MAX.f. -/
def execVredMaxF (k : At) (f : VForm) (s : State) : Out :=
  .next (s.reduce k 0x3D f f.flt.width (encodeInf f.flt true) id (minMaxF f.flt true))

/-- VRED.MIN.f. -/
def execVredMinF (k : At) (f : VForm) (s : State) : Out :=
  .next (s.reduce k 0x3E f f.flt.width (encodeInf f.flt false) id (minMaxF f.flt false))

/-- VRED.ADD.Iw: lanes sign-extended, summed modulo 2^32. -/
def execVredAddI (k : At) (f : VForm) (s : State) : Out :=
  .next (s.reduce k 0x3F f (widthOfW f.w) 0 (fun x => unsigned 32 (signed (widthOfW f.w) x))
    fun a b => (a + b) % 2 ^ 32)

/-! ### Vector scratch access (R125) -/

/-- VLD (R125): the loaded bytes go to the low end of vd, zero to the enabled bytes above; a poisoned word poisons the
groups it fills. A poisoned address is a sink of kind 5 and loads poisoned zeros; under a poisoned guard nothing is read
(R446). -/
def execVld (k : At) (f : VForm) (s : State) : Out :=
  .next (s.issue k 1 (f.word 0x40) (s.vldBlocked k.core f) fun s =>
    let p := k.core
    let r := s.src p
    let a := f.ea r
    if r.pTag f.pg then s.putLanes p f.pg f.vd 8 fun _ => (0, false)
    else if r.sTag f.sx then (s.sink p 5 1).putLanes p f.pg f.vd 8 fun _ => (0, true)
    else if scratchOk a.toNat f.size then
      let c := s.core p
      ((s.scratched p 1 (f.size / 32)).noteAddr p 1 0 a).putLanes p f.pg f.vd 8 fun i =>
        if i < f.size then ((c.scratch.byte (a.toNat + i)).toNat, c.scratchTag (a.toNat + i)) else (0, false)
    else s.coreAddress p 0 a 1)

/-- One byte of a VST: written where its guard bit is 1. -/
def vstByte (r : RegFile) (f : VForm) (a : Nat) (m : Memory) (i : Nat) : Memory :=
  if (r.pGet f.pg).getLsbD i then m.store (a + i) [BitVec.ofNat 8 (lane (r.vGet f.va) 8 i)] else m

/-- The tag of one of the words that a VST writes: set by an enabled byte of a poisoned group, cleared by a whole clean
write, else as it was (R86). -/
def vstTag (r : RegFile) (f : VForm) (a : Nat) (c : Core) (j : Nat) : Core :=
  let bytes := (List.range 32).map fun i => 32 * j + i
  let on := bytes.filter fun i => (r.pGet f.pg).getLsbD i
  if on.any fun i => laneTag (r.vTag f.va) 8 i then c.setTag (a + 32 * j) true
  else if on.length = 32 then c.setTag (a + 32 * j) false else c

/-- VST (R125): enabled bytes of va go to scratch. Under a poisoned guard each word keeps its bytes and is poisoned, or
the instruction is a sink of kind 5 (R446). -/
def execVst (k : At) (f : VForm) (s : State) : Out :=
  .next (s.issue k 1 (f.word 0x41) (s.vstBlocked k.core f) fun s =>
    let p := k.core
    let r := s.src p
    let a := f.ea r
    if r.pTag f.pg then
      if !r.sTag f.sx && scratchOk a.toNat f.size then s.setCore p ((s.core p).taint a.toNat f.size) else s.sink p 5 1
    else if r.sTag f.sx then s.sink p 5 1
    else if scratchOk a.toNat f.size then
      let s := (s.scratched p 1 (f.size / 32)).noteAddr p 1 0 a
      let c := s.core p
      let c := { c with scratch := (List.range f.size).foldl (vstByte r f a.toNat) c.scratch }
      s.setCore p ((List.range (f.size / 32)).foldl (vstTag r f a.toNat) c)
    else s.coreAddress p 0 a 1)

end Sys2Proof.Machine
end

