-- ==== Sys2Proof/Machine/Predicate.lean ====
section
/-! DEFINITION. The predicate instructions of slot 0 (R107), in format SR with 4-bit register indices (R102). -/

namespace Sys2Proof.Machine

/-- A predicate result and its tag from the source registers, under the guard. -/
def State.predOp (s : State) (k : At) (word : W64) (pg pd : PReg) (res : RegFile → PredBits × Bool) : State :=
  s.issue k 0 word none fun s =>
    let r := s.src k.core
    s.putPred k.core (r.guard pg) pd (res r).1 (res r).2

/-- Two predicate sources; the result is poisoned if either is (R107). -/
def State.pred2 (s : State) (k : At) (op : Nat) (pg pd pa pb : PReg) (f : PredBits → PredBits → PredBits) : State :=
  s.predOp k (wordSR op pg pd.val pa.val pb.val 0) pg pd fun r => (f (r.pGet pa) (r.pGet pb), r.pTag pa || r.pTag pb)

/-- PSET: all ones if s[SA] is not 0, else all zeros. -/
def execPset (k : At) (pg pd : PReg) (sa : SReg) (s : State) : Out :=
  .next (s.predOp k (wordSR 0x48 pg pd.val sa.val 0 0) pg pd fun r =>
    (if r.sGet sa != 0 then BitVec.allOnes 128 else 0, r.sTag sa))

/-- PAND. -/
def execPand (k : At) (pg pd pa pb : PReg) (s : State) : Out := .next (s.pred2 k 0x49 pg pd pa pb fun a b => a &&& b)

/-- POR. -/
def execPor (k : At) (pg pd pa pb : PReg) (s : State) : Out := .next (s.pred2 k 0x4A pg pd pa pb fun a b => a ||| b)

/-- PXOR. -/
def execPxor (k : At) (pg pd pa pb : PReg) (s : State) : Out := .next (s.pred2 k 0x4B pg pd pa pb fun a b => a ^^^ b)

/-- PANDN: pa and not pb. -/
def execPandn (k : At) (pg pd pa pb : PReg) (s : State) : Out :=
  .next (s.pred2 k 0x4C pg pd pa pb fun a b => a &&& ~~~ b)

/-- PNOT. -/
def execPnot (k : At) (pg pd pa : PReg) (s : State) : Out :=
  .next (s.predOp k (wordSR 0x4D pg pd.val pa.val 0 0) pg pd fun r => (~~~ (r.pGet pa), r.pTag pa))

/-- PFIRST: bit i is 1 if i < s[SA], unsigned (R107). -/
def execPfirst (k : At) (pg pd : PReg) (sa : SReg) (s : State) : Out :=
  .next (s.predOp k (wordSR 0x4E pg pd.val sa.val 0 0) pg pd fun r =>
    (BitVec.ofNat 128 (2 ^ min (r.sGet sa).toNat 128 - 1), r.sTag sa))

end Sys2Proof.Machine
end

