-- ==== Sys2Proof/Machine/Arrays.lean ====
section
/-! DEFINITION. The matrix arrays (06 R127 to R139; 07 R155 to R168): queueing of slot-2 commands, the load and feed
ports, steps, snapshots and write-outs. -/

namespace Sys2Proof.Machine

/-! ### Places -/

/-- The state with that array replaced. -/
def State.setArr (s : State) (p : PCore) (a : Nat) (x : Arr) : State :=
  let c := s.core p
  s.setCore p { c with arrays := c.arrays.set (s.physArr a).val x }

/-- A cell of an array, by row and column. -/
def Arr.cell (x : Arr) (i j : Nat) : Cell := Tab.get Cell.zero x.cells (32 * i + j)

/-- An array with a cell replaced. -/
def Arr.setCell (x : Arr) (i j : Nat) (c : Cell) : Arr := { x with cells := Tab.put Cell.zero x.cells (32 * i + j) c }

/-- The row and column of the array at which local cell (r, n) of a tile lies (R128). -/
def cellAt (cfg : W64) (q r n : Nat) : Nat × Nat :=
  if bit cfg 54 then (16 * (q / 2) + r, 16 * (q % 2) + n) else (r, n)

/-- A cell is enabled: its row's and its column's mask bits are 1 (R128). -/
def Arr.enabled (x : Arr) (i j : Nat) : Bool := bit x.mask i && bit x.mask (32 + j)

/-- The local coordinates of a tile, row by row. -/
def tileCells (cfg : W64) : List (Nat × Nat) :=
  (List.range (tileR cfg)).flatMap fun r => (List.range (tileR cfg)).map fun n => (r, n)

/-- An array with every cell of a tile changed. -/
def Arr.mapTile (x : Arr) (q : Nat) (onlyEnabled : Bool) (f : Cell → Cell) : Arr :=
  (tileCells x.cfg).foldl (fun y rn =>
    let ij := cellAt x.cfg q rn.1 rn.2
    if onlyEnabled && !x.enabled ij.1 ij.2 then y else y.setCell ij.1 ij.2 (f (y.cell ij.1 ij.2))) x

/-! ### Shape checks (R139) -/

/-- A command for a quadrant in whole mode, or with more than 16 steps in quadrant mode (R139 reason 2). -/
def ArrCmd.badTile (c : ArrCmd) (cfg : W64) : Bool :=
  (!bit cfg 54 && c.f.q != 0) || (bit cfg 54 && (c.op == .mma || c.op == .feed) && decide (c.f.n1.toNat + 1 > 16))

/-- The format code is neither 4-bit nor ternary while D2 = 1 (R139 reason 4). -/
def badD2 (cfg : W64) (code : Nat) : Bool := bit cfg 42 && !([7, 9, 10].contains code)

/-- ARRAY_SHAPE: the command is rejected with a stop request (R139; 06 "Events"). -/
def State.arrayShape (s : State) (p : PCore) (a reason : Nat) (bundle : BitVec 13) : State :=
  s.raiseAt p 0x3B (BitVec.ofNat 64 (a * 256 + reason)) REQ_STOP 2 bundle

/-! ### Queueing (R134, R127) -/

/-- A non-empty range that breaks R79. -/
def rangeBad (r : Nat × Nat) : Bool := r.2 != 0 && (r.1 % 32 != 0 || decide (r.1 + r.2 > scratchSize))

/-- Whether two commands act on a common tile; MCFG acts on every tile. -/
def ArrCmd.meets (c d : ArrCmd) : Bool := c.op == .mcfg || d.op == .mcfg || c.f.q == d.f.q

/-- MLDS and FEED act in the ports alone (R135, R162). -/
def ArrCmd.isPort (c : ArrCmd) : Bool := c.op == .mlds || c.op == .feed

/-- The command at position i may act in the array: no earlier command of the array proper meets its tile (R135). -/
def Arr.turn (x : Arr) (i : Nat) : Bool :=
  match x.queue[i]? with
  | none => false
  | some c => !c.isPort && (x.queue.take i).all fun d => d.isPort || !d.meets c

/-- An array with the command at a position removed from its queue. -/
def Arr.dequeue (x : Arr) (i : Nat) : Arr := { x with queue := x.queue.eraseIdx i }

/-! ### The classes of array cycles (R162, R163) -/

/-- The first command of the array proper that meets a tile. -/
def Arr.tileHead (x : Arr) (q : Fin 4) : Option (Nat × ArrCmd) :=
  match x.queue.findIdx? fun c => !c.isPort && (c.op == .mcfg || c.f.q == q) with
  | none => none
  | some i => x.queue[i]?.map fun c => (i, c)

/-- The tiles of an array: four quadrants, or the whole array as quadrant 0. -/
def Arr.tiles (x : Arr) : List (Fin 4) := if bit x.cfg 54 then List.finRange 4 else [0]

/-- The array is frozen on its full drain: a tile's head command is an MDRN or MPRE and the drain buffer is busy (R137,
R162, R163). -/
def Arr.drainFull (x : Arr) : Bool :=
  x.drain.isSome && x.tiles.any fun q => match x.tileHead q with
    | some (i, c) => x.turn i && (c.op == .mdrn || c.op == .mpre)
    | none => false

/-- n cycles of a tile are classed and counted (R162, R423); they have yet to pass. -/
def State.arrClass (s : State) (p : PCore) (a : Nat) (q : Fin 4) (cls : Fin 8) (n : Nat) : State :=
  let x := s.arr p a
  let quad := bit x.cfg 54
  let s := s.setArr p a { x with cls := x.cls.set q.val cls, spent := x.spent.set q.val (x.spent[q.val] + n) }
  s.pmu p (0x10 + cls.val) fun w => if w / 2 ^ a % 2 = 1 ∧ (quad = false ∨ w / 2 ^ (6 + q.val) % 2 = 1) then n else 0

/-- n cycles of every tile of an array are classed. -/
def State.classAll (s : State) (p : PCore) (a : Nat) (cls : Fin 8) (n : Nat) : State :=
  s.each (s.arr p a).tiles fun s q => s.arrClass p a q cls n

/-- The class of a cycle in which nothing acts in a tile (R162): the full drain, a dry feeder, the wait for a load, no command
for the tile; none where its head command may act and has not been commanded to (log entry 39). -/
def Arr.idleClass (x : Arr) (q : Fin 4) : Option (Fin 8) :=
  if x.drainFull then some 2
  else match x.tileHead q with
    | none => some 7
    | some (i, c) =>
      if c.op != .mma then none
      else if x.feeders[q.val].isEmpty then some 3
      else if c.step = 0 ∧ ((x.queue.take i).any fun d => d.op == .mlds && d.f.q == c.f.q && d.f.buf == c.f.buf) = true
      then some 4 else none

/-- The end of a cycle in an array: a bubble is class HOLD and moves nothing; a cycle already classed passes; any other takes
the class of its queue (R84, R162, R163). -/
def State.arrCycle (s : State) (p : PCore) (a : Nat) : State :=
  s.each (s.arr p a).tiles fun s q =>
    let x := s.arr p a
    if s.bubble p then
      let s := s.arrClass p a q 1 1
      s.setArr p a { s.arr p a with spent := x.spent }
    else if x.spent[q.val] ≠ 0 then s.setArr p a { x with spent := x.spent.set q.val (x.spent[q.val] - 1) }
    else match x.idleClass q with
      | some k =>
        let s := s.arrClass p a q k 1
        s.setArr p a { s.arr p a with spent := x.spent }
      | none => s

/-- Cells, ports and write-outs of a core hold: a power bubble (R163), or stopped clocks (R379). -/
def State.arrHeld (s : State) (p : PCore) : Bool := s.bubble p || !s.clocked p

/-! ### Configuration, clearing and preloading (R129, R137, R138) -/

/-- MCFG takes effect (R129). -/
def Arr.configure (x : Arr) (w mask : W64) : Arr :=
  if bit w 54 != bit x.cfg 54 || bit w 42 != bit x.cfg 42 then
    { x with cfg := w, mask, cells := [], bufs := Vector.replicate 8 none, feeders := Vector.replicate 4 [] }
  else if bit w 53 != bit x.cfg 53 then { x with cfg := w, mask, cells := [] }
  else { x with cfg := w, mask }

/-- The cell that a preloaded grid value makes: one term, or the invalid marker (R138, R58). -/
def preloadGrid (v : Nat) (tag : Bool) : Cell :=
  if v = 2 ^ 63 then { Cell.zero with terms := 1, invalid := true, poison := tag }
  else { Cell.zero with sum := signed 64 v, terms := 1, poison := tag }

/-- MPRE replaces the accumulators of its tile by what scratch holds (R138), and says whether an enabled cell of a
float-mode tile became NaN (R63). Every cell of the tile counts one term, masked or not: R138 has each value count as a
term, R56 and R156 have a disabled cell count nothing (log entry 15). -/
def Arr.preload (x : Arr) (c : Core) (q addr : Nat) : Arr × Bool :=
  let z := preloadZ x.cfg
  let n := tileR x.cfg
  (tileCells x.cfg).foldl (fun (acc : Arr × Bool) rn =>
    let ij := cellAt x.cfg q rn.1 rn.2
    let a := addr + (n * rn.1 + rn.2) * z
    let v := c.scratch.num a z
    let tag := c.scratchTag a
    if bit x.cfg 53 then
      (acc.1.setCell ij.1 ij.2 { Cell.zero with sum := v, poison := tag },
       acc.2 || ((num32 v).isNan && x.enabled ij.1 ij.2))
    else (acc.1.setCell ij.1 ij.2 (preloadGrid v tag), acc.2)) (x, false)

/-- Commands that take effect as soon as their turn comes: MCFG, MCLR, MPRE with the drain buffer free, a command under
a poisoned guard or operand, and one that its shape rejects. -/
def Arr.instant (x : Arr) (c : ArrCmd) : Bool :=
  match c.op with
  | .mcfg | .mclr => true
  | .mpre => x.drain.isNone || c.poisoned || c.badTile x.cfg
  | .mdrn => c.poisoned || c.badTile x.cfg
  | .mma => c.poisoned
  | .mlds | .feed => false

/-- What a poisoned command does at its turn (R127): MMA taints its enabled cells, MPRE and MCLR every cell of the tile,
MDRN the scratch words of its destination. -/
def State.taintedCmd (s : State) (p : PCore) (a : Nat) (c : ArrCmd) : State :=
  let x := s.arr p a
  let mark : Cell → Cell := fun y => { y with poison := true }
  match c.op with
  | .mma => s.setArr p a (x.mapTile c.f.q.val true mark)
  | .mpre | .mclr => s.setArr p a (x.mapTile c.f.q.val false mark)
  | .mdrn =>
    if c.addrOk then
      let n := tileR x.cfg
      s.setCore p ((s.core p).taint c.x.toNat (n * n * drainZ c.cfg))
    else s
  | _ => s

/-- Cycles of class CONTROL that a command takes (06 "Array commands", R162): MPRE reads 64 bytes a cycle, any other takes
one. -/
def ArrCmd.controlCycles (c : ArrCmd) (cfg : W64) : Nat :=
  if c.op = .mpre ∧ c.poisoned = false ∧ c.badTile cfg = false then ceilDiv (tileR cfg * tileR cfg * preloadZ cfg) 64 else 1

/-- A command whose turn has come takes effect and leaves the queue; its cycles are of class CONTROL (R162). -/
def State.performCmd (s : State) (p : PCore) (a i : Nat) (c : ArrCmd) : State :=
  let n := c.controlCycles (s.arr p a).cfg
  let s := if c.op = .mcfg then s.classAll p a 6 n else s.arrClass p a (if bit (s.arr p a).cfg 54 then c.f.q else 0) 6 n
  let s := s.setArr p a ((s.arr p a).dequeue i)
  let x := s.arr p a
  if c.poisoned then s.taintedCmd p a c
  else if c.op = .mcfg then
    if cfgBad c.x then s.arrayShape p a 1 c.bundle else s.setArr p a (x.configure c.x c.y)
  else if c.badTile x.cfg then s.arrayShape p a 2 c.bundle
  else if c.op = .mclr then s.setArr p a (x.mapTile c.f.q.val false fun _ => Cell.zero)
  else if c.op = .mpre then
    let y := x.preload (s.core p) c.f.q.val c.x.toNat
    let s := s.setArr p a y.1
    if y.2 then s.orReg (Reg.CORE_NUM_FLAGS p) (1 <<< (12 + a)) else s
  else s

/-- The commands at the heads of an array's tiles take effect, one after another, until none can; none does while a full drain
freezes the array (R163). -/
def State.advanceArr (s : State) (p : PCore) (a : Nat) : Nat → State
  | 0 => s
  | n + 1 =>
    let x := s.arr p a
    match (List.range x.queue.length).find? fun i =>
      !x.drainFull && x.turn i && ((x.queue[i]?.map x.instant).getD false) with
    | none => s
    | some i =>
      match x.queue[i]? with
      | none => s
      | some c => (s.performCmd p a i c).advanceArr p a n

/-- A slot-2 command issues (R127, R134, R139): a poisoned guard or operand makes it a sink of kind 5 and it waits for
its turn as a poisoned command; a range outside scratch raises CORE_ADDRESS; else it joins the queue. -/
def State.arrIssue (s : State) (k : At) (opc : Nat) (op : ArrOp) (f : MForm) : State :=
  s.issue k 2 (f.word opc) (s.arrBlocked k.core op f) fun s =>
    let p := k.core
    let a := f.ma.toNat
    let r := s.src p
    let x := s.arr p a
    let c := mkCmd op f r x.pendingCfg (s.core p).bundle (s.core p).drains
    match r.guard f.pg with
    | .off => s
    | g =>
      let s := if op = .mdrn then s.setCore p { s.core p with drains := (s.core p).drains + 1 } else s
      let bad := c.ranges.find? rangeBad
      if g = .poisoned ∨ cmdTag op f r = true then
        let s := s.sink p 5 2
        let c := { c with poisoned := true, addrOk := !r.sTag f.sx && bad.isNone }
        (s.setArr p a { x with queue := x.queue ++ [c] }).advanceArr p a 5
      else
        match bad with
        | some b => s.coreAddress p 0 (BitVec.ofNat 64 b.1) 2
        | none =>
          let s := s.noteAddr p 2 0 (if op = .mcfg ∨ op = .mma ∨ op = .mclr then 0 else c.x)
          (s.setArr p a { x with queue := x.queue ++ [{ c with addrOk := true }] }).advanceArr p a 5

/-- MCFG ma, sx, sy. -/
def execMcfg (k : At) (f : MForm) (s : State) : Out := .next (s.arrIssue k 0x01 .mcfg f)
/-- MLDS.fa ma.q, buf, [sx + IMM], [sy]. -/
def execMlds (k : At) (f : MForm) (s : State) : Out := .next (s.arrIssue k 0x02 .mlds f)
/-- FEED.fb ma.q, n, [sx + IMM], [sy]. -/
def execFeed (k : At) (f : MForm) (s : State) : Out := .next (s.arrIssue k 0x03 .feed f)
/-- MMA.fa.fb ma.q, buf, n. -/
def execMma (k : At) (f : MForm) (s : State) : Out := .next (s.arrIssue k 0x04 .mma f)
/-- MDRN ma.q, [sx + IMM]. -/
def execMdrn (k : At) (f : MForm) (s : State) : Out := .next (s.arrIssue k 0x05 .mdrn f)
/-- MPRE ma.q, [sx + IMM]. -/
def execMpre (k : At) (f : MForm) (s : State) : Out := .next (s.arrIssue k 0x06 .mpre f)
/-- MCLR ma.q. -/
def execMclr (k : At) (f : MForm) (s : State) : Out := .next (s.arrIssue k 0x07 .mclr f)

/-! ### Loading (R131 to R133) -/

/-- The word that holds the first, and the word that holds the last, bit of the elements i to i + n - 1. -/
def elemWords (f : Fmt) (i n : Nat) : Nat × Nat :=
  if f = .tern then (i / 160, (i + n - 1) / 160) else (i * f.width / 256, ((i + n) * f.width - 1) / 256)

/-- Element i of the words read: its encoding (a ternary element as an INT8 lane), whether its ternary byte is out of
range, and its tag. -/
def elemOf (f : Fmt) (ws : List (BitVec 256 × Bool)) (i : Nat) : Nat × Bool × Bool :=
  let span := elemWords f i 1
  let tag := (ws.getD span.1 (0, false)).2 || (ws.getD span.2 (0, false)).2
  if f = .tern then
    let b := lane (ws.getD span.1 (0, false)).1 8 (i % 160 / 5)
    (unsigned 8 ((ternDigits b).getD (i % 5) 0), decide (b ≥ 243), tag)
  else
    let two := packNat 256 [((ws.getD span.1 (0, false)).1).toNat, ((ws.getD (span.1 + 1) (0, false)).1).toNat]
    (two / 2 ^ (i * f.width - 256 * span.1) % 2 ^ f.width, false, tag)

/-- The scale code of element i, with its tag (R132). -/
def ArrCmd.scaleOf (c : ArrCmd) (i : Nat) : Nat × Bool :=
  if c.scaled then
    let m := tileR c.cfg * tileD c.cfg
    let row := i % m / tileD c.cfg
    let kk := i / m * tileD c.cfg + i % m % tileD c.cfg
    let o := kk / tileB c.cfg * tileR c.cfg + row
    let w := c.scales.getD (o / 32) (0, false)
    (lane w.1 8 (o % 32), w.2)
  else (127, false)

/-- Elements i to i + n - 1 of what an MLDS or FEED has read. -/
def ArrCmd.loaded (c : ArrCmd) (i n : Nat) : List Elem :=
  (List.range n).map fun j =>
    let e := elemOf c.fmt c.words (i + j)
    let sc := c.scaleOf (i + j)
    { code := e.1, scale := sc.1, poison := e.2.2 || sc.2 }

/-- The flags of a finished load: a ternary byte out of range, a scale of 0xFF (R44, R47). -/
def ArrCmd.loadFlags (c : ArrCmd) : ConvFlags :=
  { tern := c.fmt == .tern && (List.range c.elems).any fun i => (elemOf c.fmt c.words i).2.1,
    scaleNan := c.scaled && (List.range c.elems).any fun i => (c.scaleOf i).1 == 255 }

/-- Elements that stand where a poisoned command loads: zeros without scales, all poisoned (R127). -/
def taintedElems (n : Nat) : List Elem := List.replicate n { code := 0, scale := 127, poison := true }

/-- The next data word, and the scale word beside it where one is left, go to the command (R133). -/
def ArrCmd.readWord (c : ArrCmd) (core : Core) : ArrCmd :=
  let k := c.words.length
  { c with
    words := c.words ++ [core.readWord (c.x.toNat + 32 * k)],
    scales := if 32 * k < c.scaleBytes then c.scales ++ [core.readWord (c.y.toNat + 32 * k)] else c.scales }

/-- The number of a buffer: 2 x quadrant + BUF. -/
def MForm.bufIx (f : MForm) : Fin 8 := ⟨2 * f.q.val + ofBool f.buf, by have := f.q.isLt; unfold ofBool; split <;> omega⟩

/-- Position of the command that a port serves: the first of its kind, once every earlier MCFG has taken effect and, for a
load, every earlier MMA on its buffer has finished (R135). -/
def Arr.portHead (x : Arr) (op : ArrOp) : Option Nat :=
  match x.queue.findIdx? fun c => c.op == op with
  | none => none
  | some i =>
    match x.queue[i]? with
    | none => none
    | some c =>
      if (x.queue.take i).any fun d => d.op == .mcfg || (op == .mlds && d.op == .mma && d.f.q == c.f.q && d.f.buf == c.f.buf)
      then none else some i

/-- The shape reason for which a port rejects its command (R139). -/
def ArrCmd.portReason (c : ArrCmd) : Option Nat :=
  if c.badTile c.cfg then some 2
  else if badD2 c.cfg (if c.op = .feed then c.f.fmtb.toNat else c.f.fmta.toNat) then some 4 else none

/-- A finished MLDS: its tile is in the buffer, its flags are set, and it leaves the queue (R134). -/
def State.finishTile (s : State) (p : PCore) (a i : Nat) (c : ArrCmd) (elems : List Elem) (fl : ConvFlags) : State :=
  let x := (s.arr p a).dequeue i
  let s := s.setArr p a { x with bufs := x.bufs.set c.f.bufIx.val (some { fmt := c.fmt, elems }) }
  (s.numFlags p fl.mask a 2 c.bundle).advanceArr p a 5

/-- The load port reads one word of the command it serves (R133, R135, R159, R165). -/
def execLoadPortRead (p : PCore) (a : ArrIx) (s : State) : Out :=
  .next (if s.arrHeld p then s else
    let x := s.arr p a.val
    match x.portHead .mlds with
    | none => s
    | some i =>
      match x.queue[i]? with
      | none => s
      | some c =>
        if c.poisoned then s.finishTile p a.val i c (taintedElems c.elems) {}
        else match (if c.words = [] then c.portReason else none) with
          | some r => (s.setArr p a.val (x.dequeue i)).arrayShape p a.val r c.bundle
          | none =>
            let c := c.readWord (s.core p)
            let s := s.activity p 5 1
            if c.words.length ≥ c.nwords then s.finishTile p a.val i c (c.loaded 0 c.elems) c.loadFlags
            else s.setArr p a.val { x with queue := x.queue.set i c })

/-- Feeder entries of a tile: 64 in whole mode, 32 per quadrant (R136). -/
def feederCap (cfg : W64) : Nat := if bit cfg 54 then 32 else 64

/-- Steps of a FEED that its first n words begin, and that they fill. -/
def ArrCmd.begun (c : ArrCmd) (n : Nat) : Nat :=
  (List.range (c.f.n1.toNat + 1)).countP fun t => (elemWords c.fmt (t * tileR c.cfg * tileD c.cfg) 1).1 < n
def ArrCmd.filled (c : ArrCmd) (n : Nat) : Nat :=
  (List.range (c.f.n1.toNat + 1)).countP fun t =>
    (elemWords c.fmt (t * tileR c.cfg * tileD c.cfg) (tileR c.cfg * tileD c.cfg)).2 < n

/-- An array with feeder entries appended to a quadrant. -/
def Arr.appendEntries (x : Arr) (q : Fin 4) (es : List Operand) : Arr :=
  { x with feeders := x.feeders.set q.val (x.feeders[q.val] ++ es) }

/-- The feed port reads one word of the command it serves, if the feeder has a free entry for every step the word
begins (R135, R158). -/
def execFeedPortRead (p : PCore) (a : ArrIx) (s : State) : Out :=
  .next (if s.arrHeld p then s else
    let x := s.arr p a.val
    match x.portHead .feed with
    | none => s
    | some i =>
      match x.queue[i]? with
      | none => s
      | some c =>
        let m := tileR c.cfg * tileD c.cfg
        let held := (x.feeders[c.f.q.val]).length
        let q := c.f.q
        if c.poisoned then
          if held + (c.f.n1.toNat + 1) > feederCap c.cfg then s
          else
            let es := List.replicate (c.f.n1.toNat + 1) { fmt := c.fmt, elems := taintedElems m : Operand }
            (s.setArr p a.val ((x.dequeue i).appendEntries q es)).advanceArr p a.val 5
        else match (if c.words = [] then c.portReason else none) with
          | some r => (s.setArr p a.val (x.dequeue i)).arrayShape p a.val r c.bundle
          | none =>
            if held + (c.begun (c.words.length + 1) - c.step) > feederCap c.cfg then s
            else
              let c := c.readWord (s.core p)
              let s := s.activity p 5 1
              let n := c.filled c.words.length
              let es := (List.range (n - c.step)).map fun j =>
                { fmt := c.fmt, elems := c.loaded ((c.step + j) * m) m : Operand }
              let c := { c with step := n }
              if c.words.length ≥ c.nwords then
                let s := s.setArr p a.val ((x.dequeue i).appendEntries q es)
                (s.numFlags p c.loadFlags.mask a.val 2 c.bundle).advanceArr p a.val 5
              else s.setArr p a.val ({ x with queue := x.queue.set i c }.appendEntries q es))

/-! ### Steps (R155, R160, R162, R163) -/

/-- An element's exact value with its scale (R46, R47). -/
def Elem.value (e : Elem) (f : Fmt) : Num := (Num.decode f e.code).mul (Num.ofScale e.scale)

/-- What a step did besides changing cells: a truncated product, a cell that became NaN, an overflow to infinity. -/
structure StepFlags where
  inexact : Bool := false
  nan : Bool := false
  ovf : Bool := false
  deriving DecidableEq, Repr

/-- A product added to a cell in grid mode (R54 to R58). -/
def Cell.addGrid (c : Cell) (g : Int) (p : Num) (tag bad : Bool) : Cell × StepFlags :=
  let c := { c with terms := c.terms + 1, poison := c.poison || tag }
  if bad || !p.isFin then ({ c with invalid := true }, { nan := bad })
  else
    let y := p.scaleDown g
    let q := y.floor
    ({ c with sum := c.sum + q, big := c.big || decide (q.natAbs ≥ 2 ^ 63) }, { inexact := !(y.eq (Num.ofInt q)) })

/-- A product added to a cell in float mode (R63). -/
def Cell.addFloat (c : Cell) (p : Num) (tag : Bool) : Cell × StepFlags :=
  let old := num32 c.sum.toNat
  let r := rne32 (old.add false p)
  ({ c with sum := r, poison := c.poison || tag },
   { nan := (num32 r).isNan && !old.isNan, ovf := old.isFin && p.isFin && !(num32 r).isFin })

/-- The stationary element that cell (r, n) uses at step t for term j (R155); none was loaded where the buffer is
empty (draw k, log entry 22). -/
def stationary (k : Nat) (b : Option Operand) (t : Bool) (R d step n j : Nat) : Elem :=
  let i := if t then n * R + step else (step * R + n) * d + j
  match b with
  | some o => o.elems.getD i { code := 0, scale := 127, poison := false }
  | none => { code := Config.emptyElement k i, scale := 127, poison := false }

/-- One step of an MMA on the enabled cells of its tile (R155). -/
def Arr.step (x : Arr) (k : Nat) (c : ArrCmd) (e : Operand) : Arr × StepFlags :=
  let R := tileR x.cfg
  let d := tileD x.cfg
  let fa := (Fmt.ofCode c.f.fmta.toNat).getD .f32
  let g := signed 9 (fld x.cfg 63 55)
  let buf := x.bufs[c.f.bufIx.val]
  let bad := fa == .f32 || e.fmt == .f32
  (tileCells x.cfg).foldl (fun (acc : Arr × StepFlags) rn =>
    let ij := cellAt x.cfg c.f.q.val rn.1 rn.2
    if x.enabled ij.1 ij.2 then
      let out := (List.range d).foldl (fun (y : Cell × StepFlags) j =>
        let a := stationary k buf c.f.t R d c.step rn.2 j
        let b := e.elems.getD (rn.1 * d + j) { code := 0, scale := 127, poison := false }
        let p := (a.value fa).mul (b.value e.fmt)
        let tag := a.poison || b.poison
        let z := if bit x.cfg 53 then y.1.addFloat p tag else y.1.addGrid g p tag bad
        (z.1, { inexact := y.2.inexact || z.2.inexact, nan := y.2.nan || z.2.nan, ovf := y.2.ovf || z.2.ovf }))
        (acc.1.cell ij.1 ij.2, acc.2)
      (acc.1.setCell ij.1 ij.2 out.1, out.2)
    else acc) (x, {})

/-- The bits of CORE_NUM_FLAGS that a step of logical array a sets (R54, R55, R63). -/
def StepFlags.mask (f : StepFlags) (a : Nat) : W64 :=
  BitVec.ofNat 64 (ofBool f.inexact * 2 ^ (18 + a) + ofBool f.nan * 2 ^ (12 + a) + ofBool f.ovf * 2 ^ (24 + a))

/-- Formats of the entries that a tile's feeder holds and that the FEEDs queued for it will append, in order. -/
def Arr.entryFmts (x : Arr) (q : Fin 4) : List Nat :=
  (x.feeders[q.val]).map (·.fmt.code) ++
    (x.queue.filter fun d => d.op == .feed && d.f.q == q).flatMap fun d =>
      List.replicate (d.f.n1.toNat + 1 - d.step) d.f.fmtb.toNat

/-- Why an MMA that has its turn is rejected before its first step (R139 reasons 2 to 5): each of its entries that the feeder
holds, or a queued FEED will append, is compared. -/
def Arr.mmaReason (x : Arr) (c : ArrCmd) : Option Nat :=
  if c.badTile x.cfg then some 2
  else if c.f.t && bit x.cfg 42 then some 3
  else if badD2 x.cfg c.f.fmta.toNat || badD2 x.cfg c.f.fmtb.toNat then some 4
  else if ((x.entryFmts c.f.q).take (c.f.n1.toNat + 1)).any (· != c.f.fmtb.toNat) then some 5
  else match x.bufs[c.f.bufIx.val] with
    | some o => if o.fmt.code != c.f.fmta.toNat then some 5 else none
    | none => none

/-- The activity class of a step and the cycles it takes (R130, R350). -/
def stepClass (cfg : W64) (c : ArrCmd) : Fin 12 × Nat :=
  let a := c.f.fmta.toNat
  let b := c.f.fmtb.toNat
  if a = 0 ∨ b = 0 then (4, 16) else if a ≤ 2 ∨ b ≤ 2 then (3, 2) else if bit cfg 42 then (2, 1) else (1, 1)

/-- The MMA at the head of a tile is rejected on its shape (R139). -/
def State.rejectMma (s : State) (p : PCore) (a : Nat) (q : Fin 4) (i reason : Nat) (c : ArrCmd) : State :=
  (((s.arrClass p a q 6 1).setArr p a ((s.arr p a).dequeue i)).arrayShape p a reason c.bundle).advanceArr p a 5

/-- A step of the MMA at the head of a tile (R135, R136, R155, R160): nothing moves in a bubble or while a full drain freezes
the array (R163); it is rejected on its shape, freezes on a dry feeder, waits for its buffer's load, or adds its products. An
entry of another format that joins after its first step ends it there (log entry 12). -/
def execMmaStep (p : PCore) (a : ArrIx) (q : Fin 4) (s : State) : Out :=
  .next (if s.arrHeld p then s else
    let x := s.arr p a.val
    if x.drainFull then s.classAll p a.val 2 1
    else match x.tileHead q with
    | none => s
    | some (i, c) =>
      if c.op != .mma then s
      else
        let loading := (x.queue.take i).any fun d => d.op == .mlds && d.f.q == c.f.q && d.f.buf == c.f.buf
        match (if c.step = 0 ∧ loading = false then x.mmaReason c else none) with
        | some r => s.rejectMma p a.val q i r c
        | none =>
          match x.feeders[q.val] with
          | [] => s.arrClass p a.val q 3 1
          | e :: es =>
            if c.step = 0 ∧ loading = true then s.arrClass p a.val q 4 1
            else if e.fmt.code != c.f.fmtb.toNat then s.rejectMma p a.val q i 5 c
            else
              let y := if c.step = 0 ∧ c.f.clr = true then x.mapTile q.val false fun _ => Cell.zero else x
              let z := y.step s.draws c e
              let done := decide (c.step ≥ c.f.n1.toNat)
              let w := { z.1 with
                feeders := z.1.feeders.set q.val es,
                queue := if done then z.1.queue.eraseIdx i else z.1.queue.set i { c with step := c.step + 1 } }
              let s := (s.draw.setArr p a.val w).orReg (Reg.CORE_NUM_FLAGS p) (z.2.mask a.val)
              let s := s.activity p (stepClass x.cfg c).1 (stepClass x.cfg c).2
              (s.arrClass p a.val q 0 (stepClass x.cfg c).2).advanceArr p a.val 5)

/-! ### Drains (R137, R164, R57 to R59) -/

/-- The value that a grid cell delivers, and whether it was out of range (R57, R58). -/
def Cell.deliver (c : Cell) : Nat × Bool :=
  if c.invalid then (2 ^ 63, false)
  else if c.sum.natAbs > 2 ^ 63 - 1 ∨ c.big = true ∨ c.terms > 65536 then
    (if c.sum < 0 then 2 ^ 63 + 1 else 2 ^ 63 - 1, true)
  else (unsigned 64 c.sum, false)

/-- The exact value of a delivered grid value S x 2^G; the marker is a NaN. -/
def gridNum (v : Nat) (g : Int) : Num :=
  if v = 2 ^ 63 then .nan
  else match Num.ofInt (signed 64 v) with
    | .fin s m e => .fin s m (e + g)
    | y => y

/-- What one cell of a drain delivers, with the random value for its rounding: its bytes as a number, out of range, invalid or
NaN, conversion flags. A float-mode accumulator is converted to DFMT with DRM and DSAT, as R137 says, F32 included: with
DSAT = 1 an infinite one becomes the largest finite value and sets CONV_OVF, where 06's DGRID row has it delivered as it
stands (log entry 70). -/
def drainCell (rand : Nat) (cfg : W64) (c : Cell) : Nat × Bool × Bool × ConvFlags :=
  let f := (Fmt.ofCode (fld cfg 50 47)).getD .f32
  let cv : Num → Conv := fun x => x.conv f (Rm.ofCode (fld cfg 46 44)) rand (bit cfg 43)
  if bit cfg 53 then
    let x := num32 c.sum.toNat
    let y := cv x
    (y.code, false, x.isNan, y.flags)
  else
    let d := c.deliver
    if bit cfg 51 then (d.1, d.2, c.invalid, {})
    else let y := cv (gridNum d.1 (signed 9 (fld cfg 63 55))); (y.code, d.2, c.invalid, y.flags)

/-- The random value for cell i of a drain that rounds at random: one for each element of the rubber, the same in every run and
replay of it (R53, R64; log entry 23). -/
def State.drainRand (s : State) (p : PCore) (c : ArrCmd) (i : Nat) : Nat :=
  Config.drainRandom (s.reg (Reg.CORE_SR_SEED0 p)) (s.reg (Reg.CORE_SR_SEED1 p)) s.rubber (s.lcoreOf p) c.ord i

/-- The snapshot of a tile (R137): bytes row by row, a tag for each 32-byte word, and the flags of its enabled cells. -/
def Arr.snapshot (x : Arr) (rand : Nat → Nat) (a : Nat) (c : ArrCmd) : Drain :=
  let z := drainZ x.cfg
  let cells := (tileCells x.cfg).mapIdx fun i rn =>
    let ij := cellAt x.cfg c.f.q.val rn.1 rn.2
    let cell := x.cell ij.1 ij.2
    (drainCell (rand i) x.cfg cell, cell.poison, x.enabled ij.1 ij.2)
  let on := cells.filter fun y => y.2.2
  let per := 32 / z
  let conv := on.foldl (fun (m : ConvFlags) y => m.or y.1.2.2.2) {}
  { addr := c.x.toNat,
    data := cells.flatMap fun y => leBytes z y.1.1,
    poison := (chunks per (cells.length / per) cells).map fun w => w.any fun y => y.2.1,
    flags := conv.mask ||| BitVec.ofNat 64 (ofBool (on.any fun y => y.1.2.1) * 2 ^ (6 + a)
      + ofBool (on.any fun y => y.1.2.2.1) * 2 ^ (12 + a)),
    bundle := c.bundle }

/-- The MDRN at the head of a tile takes its snapshot, if the drain buffer is free, and leaves the queue (R134, R137,
R164); while the buffer is busy the whole array is frozen (R163). -/
def execMdrnSnapshot (p : PCore) (a : ArrIx) (q : Fin 4) (s : State) : Out :=
  .next (if s.arrHeld p then s else
    let x := s.arr p a.val
    if x.drainFull then s.classAll p a.val 2 1
    else match x.tileHead q with
    | none => s
    | some (i, c) =>
      if c.op != .mdrn then s
      else
        let d := x.snapshot (s.drainRand p c) a.val c
        let y := if c.f.clr then x.mapTile q.val false fun _ => Cell.zero else x
        let y := { y.dequeue i with drain := some d }
        (((s.setArr p a.val y).arrClass p a.val q 5 1).advanceArr p a.val 5))

/-- A drain's words go to scratch with their tags. -/
def Core.writeDrain (c : Core) (d : Drain) : Core :=
  (d.poison.mapIdx fun i t => (i, t)).foldl (fun c it =>
    c.writePart (d.addr + 32 * it.1) ((d.data.drop (32 * it.1)).take 32) it.2) c

/-- The snapshot is written to scratch, its flags and events follow, and the drain buffer is free (R57 to R59, R137,
R164); a poisoned cell makes the drain a sink of kind 1. -/
def execDrainWriteOut (p : PCore) (a : ArrIx) (s : State) : Out :=
  .next (if s.arrHeld p then s else
    let x := s.arr p a.val
    match x.drain with
    | none => s
    | some d =>
      let s := s.setArr p a.val { x with drain := none }
      let s := (s.setCore p ((s.core p).writeDrain d)).activity p 5 (ceilDiv d.data.length 64)
      let s := s.numFlags p d.flags a.val 2 d.bundle
      let s := if d.poison.any id then s.sinkAt p 1 2 d.bundle else s
      s.advanceArr p a.val 5)

end Sys2Proof.Machine
end

