-- ==== Sys2Proof/Machine/KvMath.lean ====
section
/-! DEFINITION. The arithmetic of attention (10 R225 to R229): scores, the exponential, the update of a row's state, the
merge of two states, and the row records of R151. -/

namespace Sys2Proof.Machine

/-- FP32 encoding of minus infinity. -/
abbrev negInf32 : Nat := 0xFF800000

/-- The constants c_0 to c_6 of R226: the FP32 values nearest to (ln 2)^k / k!. -/
def expCoeffs : List Nat := [0x3F800000, 0x3F317218, 0x3E75FDF0, 0x3D635847, 0x3C1D955B, 0x3AAEC3FF, 0x39218489]

/-- The polynomial of R226, from c_6 down. -/
def expPoly (f : Nat) : List Nat → Nat
  | [] => 0
  | [c] => c
  | c :: cs => add32 (mul32 (expPoly f cs) f) c

/-- The exponential E of R226, on FP32 encodings. -/
def exp32 (x : Nat) : Nat :=
  let y := num32 (mul32 x 0x3FB8AA3B)
  if y.isNan then Fmt.f32.nanCode
  else if y.lt (Num.ofInt (-150)) then 0
  else
    let n := y.nearest
    let f := rne32 (y.add false (Num.ofInt (-n)))
    match num32 (expPoly f expCoeffs) with
    | .fin s m e => rne32 (.fin s m (e + n))
    | z => rne32 z

/-- The maximum of two FP32 values under the VMAX rule (R117, R227). -/
def max32 (x y : Nat) : Nat := minMaxF .f32 true x y

/-- A row that has seen no token (R227). -/
def KvRow.zero : KvRow := { m := negInf32, l := 0, o := List.replicate 128 0, poison := false }

/-- The score of a row for a token (R225): SCALE times the exact sum of products, rounded once. -/
def kvScore (scale : Nat) (q k : List Num) : Nat :=
  rne32 ((num32 scale).mul ((q.zip k).foldl (fun a x => a.add false (x.1.mul x.2)) (.fin false 0 0)))

/-- The update of a row's state by the tokens of one block that the row sees, in ascending order: each token's score and
values (R227). -/
def KvRow.update (r : KvRow) (toks : List (Nat × List Num)) : KvRow :=
  match toks with
  | [] => r
  | t :: ts =>
    let b := ts.foldl (fun a x => max32 a x.1) t.1
    let m := max32 r.m b
    let a := if r.m = negInf32 then 0 else exp32 (sub32 r.m m)
    let r := { r with m, l := mul32 r.l a, o := r.o.map fun x => mul32 x a }
    toks.foldl (fun r t =>
      let w := exp32 (sub32 t.1 m)
      { r with l := add32 r.l w,
               o := (r.o.zip t.2).map fun x => rne32 (((num32 w).mul x.2).add false (num32 x.1)) }) r

/-- The merge of two states, the earlier operand first (R228); poison is the OR (R231). -/
def KvRow.merge (e h : KvRow) : KvRow :=
  let mm := max32 e.m h.m
  let ae := if e.m = negInf32 then 0 else exp32 (sub32 e.m mm)
  let ah := if h.m = negInf32 then 0 else exp32 (sub32 h.m mm)
  { m := mm, l := add32 (mul32 e.l ae) (mul32 h.l ah),
    o := (e.o.zip h.o).map fun x => add32 (mul32 x.1 ae) (mul32 x.2 ah), poison := e.poison || h.poison }

/-- The outputs divided by the sum where NORM = 1 (R229). -/
def KvRow.normalise (r : KvRow) (norm : Bool) : KvRow :=
  if norm then { r with o := r.o.map fun x => if (num32 r.l).isZero then 0 else div32 x r.l } else r

/-- The 544-byte record of a row (R151). -/
def KvRow.bytes (r : KvRow) : List Byte :=
  r.o.flatMap (leBytes 4) ++ leBytes 4 r.m ++ leBytes 4 r.l ++ List.replicate 24 0

/-- The row that 544 bytes spell. -/
def KvRow.ofBytes (bs : List Byte) (poison : Bool) : KvRow :=
  { o := (List.range 128).map fun i => leNat ((bs.drop (4 * i)).take 4), m := leNat ((bs.drop 512).take 4),
    l := leNat ((bs.drop 516).take 4), poison }

/-- A row holds a NaN (R306). -/
def KvRow.hasNan (r : KvRow) : Bool := (r.m :: r.l :: r.o).any fun x => (num32 x).isNan

end Sys2Proof.Machine
end

