-- ==== Sys2Proof/Machine/Vault.lean ====
section
/-! DEFINITION. Stored words and their errors (08 R171 to R174, R190 to R199), line repair (02 R26 to R29), sequence
translation (R194, R195), and the writes of stores (R144, R181, R182, R398). -/

namespace Sys2Proof.Machine

/-! ### Stored words -/

/-- The segment that a remap entry names, as a segment number (VLT_REMAPe). -/
def remapSeg (w : W64) : Nat := (fld w 32 23 * 4 + fld w 22 21) * 128 + fld w 36 33 * 8 + fld w 39 37

/-- The spare segment that serves a word: a VALID entry names its segment (R191). -/
def State.spareOf (s : State) (p : PCore) (w : Nat) : Option Nat :=
  (List.range 8).find? fun e =>
    let r := s.reg (Reg.VLT_REMAP p e)
    bit r 63 && remapSeg r == segmentOf w

/-- The index in `Vault.spare` of a word served by spare segment e of its slice. -/
def spareIndex (w e : Nat) : Nat := (8 * (w / 8 % 8) + e) * 64 + w / 1024 % 8 * 8 + w % 8

/-- A stored word of a memory of stored words. -/
def storedAt (m : Memory) (i : Nat) : Stored := Stored.ofBits (BitVec.ofNat 288 (m.num (36 * i) 36))

/-- A memory with a stored word replaced. -/
def putStored (m : Memory) (i : Nat) (x : Stored) : Memory := m.storeNum (36 * i) 36 x.bits.toNat

/-- The stored word at a word index, through the remap table. -/
def State.vget (s : State) (p : PCore) (w : Nat) : Stored :=
  let v := (s.core p).vault
  match s.spareOf p w with
  | some e => storedAt v.spare (spareIndex w e)
  | none => storedAt v.mem w

/-- The state with a vault replaced. -/
def State.setVault (s : State) (p : PCore) (v : Vault) : State := s.setCore p { s.core p with vault := v }

/-- The state with the stored word at a word index replaced, through the remap table. -/
def State.vput (s : State) (p : PCore) (w : Nat) (x : Stored) : State :=
  let v := (s.core p).vault
  match s.spareOf p w with
  | some e => s.setVault p { v with spare := putStored v.spare (spareIndex w e) x }
  | none => s.setVault p { v with mem := putStored v.mem w x }

/-- The word of a memory layer counted for its dissipation (R366). -/
def State.layerWork (s : State) (p : PCore) (slice words units : Nat) : State :=
  let h := s.towerHeat (towerOf p)
  let k : Fin 8 := ⟨slice % 8, Nat.mod_lt _ (by decide)⟩
  s.setHeat (towerOf p) { h with layer := h.layer.set k.val (h.layer[k.val].1 + words, h.layer[k.val].2 + units) }

/-- A word crosses the channel, read or written (R350 class 7, R423 events 0x20 and 0x21). -/
def State.channelWord (s : State) (p : PCore) (w : Nat) (wr : Bool) : State :=
  ((s.pmu p (if wr then 0x21 else 0x20) (fun _ => 1)).activity p 7 1).layerWork p (w / 8) 1 0

/-! ### Corrections and uncorrectable words -/

/-- An event of the vault controller (R198): slot 3. -/
def State.vaultEvent (s : State) (p : PCore) (code : Nat) (arg : W64) (req : Nat) (bundle : BitVec 13) : State :=
  s.raiseAt p code arg req 3 bundle

/-- A segment becomes hard (R190, R192): unless the table already names it, the field part gets its record and it takes
the lowest free entry with PENDING = 1; with none free, MEM_REMAP_FULL. -/
def State.hardSegment (s : State) (p : PCore) (seg : Nat) (bundle : BitVec 13) : State :=
  let named := (List.range 8).any fun e =>
    let r := s.reg (Reg.VLT_REMAP p e)
    (bit r 63 || bit r 62) && remapSeg r == seg
  if named then s
  else
    let s := s.append [.rowSpare p seg]
    match (List.range 8).find? fun e => !bit (s.reg (Reg.VLT_REMAP p e)) 63 && !bit (s.reg (Reg.VLT_REMAP p e)) 62 with
    | some e =>
      s.setReg (Reg.VLT_REMAP p e)
        (BitVec.ofNat 64 (2 ^ 62 + seg % 8 * 2 ^ 37 + seg / 8 % 16 * 2 ^ 33 + seg / 512 * 2 ^ 23 + seg / 128 % 4 * 2 ^ 21))
    | none => s.vaultEvent p 0x12 (BitVec.ofNat 64 seg) REQ_NONE bundle

/-- CE counted, with MEM_CE_THRESHOLD while armed (R197, R199). -/
def State.countCe (s : State) (p : PCore) (bundle : BitVec 13) : State :=
  let s := s.count (Reg.VLT_ERR_CNT p) 31 16 1
  let ce := s.rd (Reg.VLT_ERR_CNT p) 31 16
  let th := s.rd (Reg.VLT_CFG p) 23 8
  let v := (s.core p).vault
  if v.ceArmed && th != 0 && decide (th ≤ ce) then
    (s.setVault p { v with ceArmed := false }).vaultEvent p 0x10 (BitVec.ofNat 64 ce) REQ_NONE bundle
  else s

/-- A correction at a word and symbol (R174, R188, R190, R197): counted and logged; one that matches an entry rewritten
before makes the segment hard. -/
def State.correction (s : State) (p : PCore) (w sym : Nat) (scrub : Bool) (bundle : BitVec 13) : State :=
  let s := s.countCe p bundle
  match (List.range 16).find? fun i =>
    let r := s.reg (Reg.VLT_CE_LOG p i)
    bit r 63 && fld r 24 0 == w && fld r 55 48 == sym with
  | some i =>
    let hard := bit (s.reg (Reg.VLT_CE_LOG p i)) 62
    let s := if scrub then s.wr (Reg.VLT_CE_LOG p i) 62 62 1 else s
    if hard then (s.wr (Reg.VLT_CE_LOG p i) 61 61 1).hardSegment p (segmentOf w) bundle else s
  | none =>
    let i := s.rd (Reg.VLT_LOG_STAT p) 3 0
    let s := if bit (s.reg (Reg.VLT_CE_LOG p i)) 63 then s.wr (Reg.VLT_LOG_STAT p) 4 4 1 else s
    let s := s.setReg (Reg.VLT_CE_LOG p i)
      (BitVec.ofNat 64 (2 ^ 63 + ofBool scrub * (2 ^ 62 + 2 ^ 60) + sym * 2 ^ 48 + w))
    s.wr (Reg.VLT_LOG_STAT p) 3 0 ((i + 1) % 16)

/-- A word found uncorrectable on a read, or by the scrubber (R174, R189, R190): counted, reported, its segment hard. -/
def State.badWord (s : State) (p : PCore) (w : Nat) (scrub : Bool) (bundle : BitVec 13) : State :=
  let s := s.count (Reg.VLT_ERR_CNT p) 47 32 1
  let s := s.vaultEvent p (if scrub then 0x13 else 0x11) (BitVec.ofNat 64 w) REQ_NONE bundle
  s.hardSegment p (segmentOf w) bundle

/-- A word as a read delivers it (R174): decoded, and whether it was uncorrectable. -/
structure ReadWord where
  word : Stored
  bad : Bool
  deriving DecidableEq, Repr

/-- The poison tag with which a read delivers a word. -/
def ReadWord.poison (r : ReadWord) : Bool := r.bad || r.word.poison

/-- The 288 bits that a read brings for a word: the decoder's finding is counted, logged and reported; nothing is written
back (R173, R174). -/
def State.decoded (s : State) (p : PCore) (w : Nat) (x : Stored) (bundle : BitVec 13) : State × ReadWord :=
  let d := decodeWord x
  match d.1 with
  | .clean => (s, ⟨d.2, false⟩)
  | .corrected q => (s.correction p w (symbolName q) false bundle, ⟨d.2, false⟩)
  | .uncorrectable => (s.badWord p w false bundle, ⟨d.2, true⟩)

/-- A read of a word as stored. -/
def State.readWord (s : State) (p : PCore) (w : Nat) (bundle : BitVec 13) : State × ReadWord :=
  s.decoded p w (s.vget p w) bundle

/-- A word written through the encoder (R171, R172). -/
def State.writeWord (s : State) (p : PCore) (w : Nat) (data : BitVec 256) (gen : Nat) (ibw poison : Bool) : State :=
  s.vput p w (encodeWord data (metaByte gen ibw poison))

/-- Bytes merged into a 256-bit word: byte i from `new` where it gives one. -/
def mergeBytes (old : BitVec 256) (new : Nat → Option Byte) : BitVec 256 :=
  BitVec.ofNat 256 (leNat ((List.range 32).map fun i => (new i).getD (old.extractLsb' (8 * i) 8)))

/-! ### Lines (R21, R24, R26 to R29) -/

/-- The group and index of the line that carries bit i of a block and its check: word line i mod 288, then command lines
8 to 23 (R21, R175, R176). -/
def lineOf (i : Nat) : Nat × Nat :=
  if i < 576 then (i % 288 / 18, i % 288 % 18) else let j := 8 + (i - 576) % 16; (j / 2, 18 + j % 2)

/-- The repair byte of a group. -/
def State.repairByte (s : State) (p : PCore) (g : Nat) : Nat :=
  s.rd (Reg.VLT_VCH_SPARE p (g / 8)) (8 * (g % 8) + 7) (8 * (g % 8))

/-- The spare of a group is free and good (R24, R27). -/
def State.spareFree (s : State) (p : PCore) (g : Nat) : Bool :=
  s.repairByte p g % 64 == 0x1F && s.rd (Reg.VLT_VCH_STAT p) g g == 0

/-- A retirement is due: CORE_RETIRED with PENDING = 1, once for the core (R391, R403). -/
def State.retirePending (s : State) (p : PCore) (reason : Nat) : State :=
  if s.boot.retirePend.any (fun x => x.1 == p) then s
  else
    let s := { s with boot := { s.boot with retirePend := s.boot.retirePend ++ [(p, reason)] } }
    (s.count Reg.TBL_SPARE_STAT 63 56 1).eventN 0x1F (2 ^ 63 + reason * 2 ^ 40 + 0x1FF * 2 ^ 16 + p.val) 0

/-- A group is exhausted (R24, R28): VCH_GROUP_EXHAUSTED, its bit, and the retirement; a switch of this rubber that waits is
dropped (R29), one that is due from an earlier rubber is made. -/
def State.exhaustGroup (s : State) (p : PCore) (g : Nat) (drop : Bool) : State :=
  let s := s.wr (Reg.VLT_VCH_STAT p) (32 + g) (32 + g) 1
  let s := if drop then s.wr (Reg.VLT_VCH_STAT p) (16 + g) (16 + g) 0 else s
  (s.vaultEvent p 0x1D (Config.groupExhaustedArg g) REQ_NONE 0).retirePending p 2

/-- A line is declared failing (R26 to R29): VCH_LINE_FAILING. A switch waits if the group's spare is free and good and no
other line has it coming; the group is exhausted if another of its lines failed in this rubber, neither then being
switched, or its spare is taken. Lines are numbered 20 x group + index. -/
def State.lineFailing (s : State) (p : PCore) (line : Nat) : State :=
  let g := line / 20
  let v := (s.core p).vault
  let inGroup := fun (x : Nat) => x / 20 == g && x != line
  let s := s.setVault p { v with failingNow := v.failingNow ++ [line], failed := v.failed ++ [line] }
  let s := s.vaultEvent p 0x1C (Config.lineFailingArg g (line % 20)) REQ_NONE 0
  let bad := bit (s.reg (Reg.VLT_VCH_STAT p)) (32 + g)
  if s.spareFree p g && !bad && !v.failingNow.any inGroup && !v.due.any inGroup then
    s.wr (Reg.VLT_VCH_STAT p) (16 + g) (16 + g) 1
  else s.exhaustGroup p g (!v.due.any inGroup)

/-- An error attributed to a line: the sixteenth within 65,536 block transfers declares it failing (R26). -/
def State.lineError (s : State) (p : PCore) (line : Nat) : State :=
  let v := (s.core p).vault
  let errs := (v.lineErrs.filter fun e => decide (v.blocks - e.2 < 65536)) ++ [(line, v.blocks)]
  let s := s.setVault p { v with lineErrs := errs }
  if (errs.countP fun e => e.1 == line) ≥ 16 && !v.failed.contains line then s.lineFailing p line else s

/-- A failed block attributed to the lines of the bits that differed from its re-send (R26). -/
def State.attribute (s : State) (p : PCore) (flips : List Nat) : State :=
  s.each ((flips.map fun i => 20 * (lineOf i).1 + (lineOf i).2).eraseDups) fun s l => s.lineError p l

/-- The bits in which two transfers of one block differ, from the bits flipped in each. -/
def differing (a b : List Nat) : List Nat := (a.filter fun i => !b.contains i) ++ b.filter fun i => !a.contains i

/-- Block transfers on the channel are counted (R26). -/
def State.blocksMoved (s : State) (p : PCore) (n : Nat) : State :=
  let v := (s.core p).vault
  s.setVault p { v with blocks := v.blocks + n }

/-- A block transfer on the channel is counted. -/
def State.blockMoved (s : State) (p : PCore) : State := s.blocksMoved p 1

/-! ### Commands and bursts (R175 to R178, R180) -/

/-- A command is on the command bus. -/
def State.place (s : State) (p : PCore) (cmd : W64) : State := s.setVault p { (s.core p).vault with cmd }

/-- Every bank is closed (R180). -/
def State.closeBanks (s : State) (p : PCore) : State := s.setVault p { (s.core p).vault with cmd := prechargeAll, rows := [] }

/-- The command of a burst is placed: ACT where its row is not open in its bank; with AP the row closes after it (R175). -/
def State.placeBurst (s : State) (p : PCore) (kind : Nat) (ap : Bool) (ws : List Nat) : State :=
  let v := (s.core p).vault
  let w := ws.headD 0
  let b := 16 * sliceOf w + bankOf w
  let row := rowOf w + 1
  s.setVault p { v with cmd := burstCommand kind (Tab.get 0 v.rows b != row) ap ws,
                        rows := Tab.put 0 v.rows b (if ap then 0 else row) }

/-- The blocks of a burst that hold some words. -/
def blocksIn (ws : List Nat) : Nat := ((ws.map (· / 2)).eraseDups).length

/-- VCH_RETRY_EXHAUSTED (R178, R198): KIND and word index of the burst. -/
def State.exhausted (s : State) (p : PCore) (kind word : Nat) (ofHand : Bool) (bundle : BitVec 13) : State :=
  s.vaultEvent p 0x15 (BitVec.ofNat 64 (kind * 2 ^ 59 + word)) (if ofHand then REQ_REPLAY else REQ_NONE) bundle

/-- The re-sends counted (R177, R423). -/
def State.countResend (s : State) (p : PCore) : State := (s.count (Reg.VLT_ERR_CNT p) 63 48 1).pmu p 0x22 (fun _ => 1)

/-- The bits in which each failed transfer of a list differs from the next, the last from a good one. -/
def resendPairs : List (List Nat) → List (List Nat)
  | [] => []
  | [a] => [a]
  | a :: b :: r => differing a b :: resendPairs (b :: r)

/-- A burst is read for something else than a load: its command, its blocks, and the attempts that have failed, up to four,
each but the fourth answered by a re-send whose difference is attributed (R26, R177, R178). The second component tells
that the fourth failed: the burst is delivered as uncorrectable. -/
def State.readBurst (s : State) (p : PCore) (ap : Bool) (ws : List Nat) (ofHand : Bool) (bundle : BitVec 13) : State × Bool :=
  let s := (s.placeBurst p 1 ap ws).blocksMoved p (blocksIn ws)
  let v := (s.core p).vault
  match v.noise with
  | [] => (s, false)
  | fs =>
    let bad := fs.take 4
    let dead := decide (bad.length = 4)
    let s := s.setVault p { v with noise := fs.drop 4 }
    let s := s.each (bad.take 3) fun s _ => (s.countResend p).blocksMoved p (blocksIn ws)
    let pairs := if dead then (resendPairs bad).take 3 else resendPairs bad
    let s := s.each pairs fun s fl => s.attribute p fl
    (if dead then s.exhausted p 1 (ws.headD 0 / 8 * 8) ofHand bundle else s, dead)

/-- A word of a burst that could not be read is delivered as uncorrectable: counted and reported (R174, R178). -/
def State.lostWord (s : State) (p : PCore) (w : Nat) (bundle : BitVec 13) : State × ReadWord :=
  ((s.count (Reg.VLT_ERR_CNT p) 47 32 1).vaultEvent p 0x11 (BitVec.ofNat 64 w) REQ_NONE bundle, ⟨s.vget p w, true⟩)

/-- A word as its burst brings it. -/
def State.wordOf (s : State) (p : PCore) (lost : Bool) (w : Nat) (bundle : BitVec 13) : State × ReadWord :=
  if lost then s.lostWord p w bundle else s.readWord p w bundle

/-- A write of part of a word by read-modify-write (R181, R182): the burst read, the word decoded, merged, re-encoded; poisoned
if the word read was uncorrectable or poisoned, or the data is. -/
def State.mergeWord (s : State) (p : PCore) (w : Nat) (new : Nat → Option Byte) (gen : Nat) (poison ofHand : Bool)
    (bundle : BitVec 13) : State :=
  let b := s.readBurst p false [w] ofHand bundle
  let r := b.1.wordOf p b.2 w bundle
  r.1.writeWord p w (mergeBytes r.2.word.data new) gen false (poison || r.2.poison)

/-! ### Sequence translation (R80, R194, R195) -/

/-- The outcome of a translation: a vault byte address, or which of the two events applies. -/
inductive Xlate where
  | mapped (addr : Nat)
  | unmapped
  | away
  deriving DecidableEq, Repr

/-- The page entry of a sequence address in a tower, if the address lies in a valid range (R195 step 1). -/
def State.pageEntry (s : State) (t : Tower) (a : W64) : Option W64 :=
  let d := s.reg (Reg.TBL_SEQ_DIR t (fld a 43 32))
  let i := fld d 15 0 + fld a 31 16
  if fld a 63 44 != 0 || !bit d 63 || decide (fld a 31 16 > fld d 47 32) || decide (i > 65535) then none
  else some (s.reg (Reg.TBL_SEQ_PAGE t i))

/-- The tower in whose directory a core's sequence addresses are looked up. -/
def State.seqTower (s : State) (p : PCore) : Tower := ⟨s.lcoreOf p / 64 % 4, Nat.mod_lt _ (by decide)⟩

/-- Translation of a sequence address for a core (R195). -/
def State.xlate (s : State) (p : PCore) (a : W64) : Xlate :=
  match s.pageEntry (s.seqTower p) a with
  | none => .unmapped
  | some e =>
    if bit e 30 then .away
    else if !bit e 31 || fld e 19 14 != s.lcoreOf p % 64 then .unmapped
    else .mapped (fld e 13 0 * 65536 + fld a 15 0)

/-- The sequence addresses at which a range of n bytes enters each page it touches, in ascending order. -/
def pagesOf (a : W64) (n : Nat) : List W64 :=
  let lo := a.toNat / 65536
  let hi := (a.toNat + n - 1) / 65536
  (List.range (hi + 1 - lo)).map fun i => if i = 0 then a else BitVec.ofNat 64 ((lo + i) * 65536)

/-- The first page of a list that fails R80: its address, and whether it is away. -/
def State.badPage (s : State) (p : PCore) (as : List W64) : Option (W64 × Bool) :=
  as.findSome? fun a =>
    match s.xlate p a with
    | .mapped _ => none
    | .unmapped => some (a, false)
    | .away => some (a, true)

/-- XLATE_UNMAPPED or XLATE_AWAY with its hold request (R80). -/
def State.xlateEvent (s : State) (p : PCore) (a : W64) (away : Bool) : State :=
  s.raise p (if away then 0x19 else 0x18) a REQ_HOLD 3

/-- Pages translated are counted (R423 event 0x33). -/
def State.translated (s : State) (p : PCore) (n : Nat) : State := s.pmu p 0x33 (fun _ => n)

/-- The vault byte address of a translated sequence address. -/
def State.vaddr (s : State) (p : PCore) (seq : Bool) (a : W64) : Nat :=
  if seq then (match s.xlate p a with | .mapped v => v | _ => 0) else a.toNat

/-! ### Stores -/

/-- A whole word stored by VSTORE (R144); under FILL_CMP with TAG = 0b10 only if its generation is not older than the
stored one's (R398). -/
def State.storeWord (s : State) (p : PCore) (w : Nat) (new : Nat → Option Byte) (full : Bool) (gen : Nat) (poison fill : Bool)
    (bundle : BitVec 13) : State :=
  if fill && (s.core p).vault.fillCmp then
    let b := s.readBurst p false [w] true bundle
    let r := b.1.wordOf p b.2 w bundle
    if r.2.bad || decide ((gen + 16 - r.2.word.gen) % 16 ≤ 7) then
      r.1.writeWord p w (mergeBytes r.2.word.data new) gen false (poison || (!full && r.2.poison))
    else r.1.count (Reg.VLT_FILL p) 63 48 1
  else if full then s.writeWord p w (mergeBytes 0 new) gen false poison
  else s.mergeWord p w new gen poison true bundle

end Sys2Proof.Machine
end

