-- ==== Sys2Proof/Machine/Wire.lean ====
section
/-! DEFINITION. Frames as bytes: notices (11 R250), link frames with their header, CRC and lanes (12 R279 to R281), Crix frames
(14 R329). -/

namespace Sys2Proof.Machine

/-! ### CRC-32 over bytes (R279) -/

/-- The bits of a byte string as they are sent: bit 0 of each byte first. -/
def sentBits (bs : List Byte) : List Bool := bs.flatMap fun b => (List.range 8).map b.getLsbD

/-- The four bytes of the CRC-32 over a byte string, in the order of the frame check sequence that R176 names: the
coefficient of the highest power is sent first (log entry 6). -/
def crcBytes (bs : List Byte) : List Byte := leBytes 4 ((crc32 (sentBits bs)).reverse).toNat

/-- The frame with its CRC. -/
def sealed (bs : List Byte) : List Byte := bs ++ crcBytes bs

/-! ### Notices (R250) -/

/-- The words of a notice: bytes 0 to 7 and 8 to 15. -/
def Notice.lo (n : Notice) : W64 :=
  BitVec.ofNat 64 (n.trick.toNat * 2 ^ 40 + n.lcore.toNat * 2 ^ 32 + n.seat.toNat * 2 ^ 16 + n.attempt.toNat * 2 ^ 8 + n.kind.toNat)
def Notice.hi (n : Notice) : W64 :=
  BitVec.ofNat 64 (ofBool n.seatLvl * 2 ^ 63 + n.bundle.toNat * 2 ^ 48 + n.code.toNat * 2 ^ 40 + n.rubber.toNat)

/-- The 32 bytes of a notice. -/
def Notice.bytes (n : Notice) : List Byte := [n.lo, n.hi, n.originTick, n.actTick].flatMap fun w => leBytes 8 w.toNat

/-! ### Link frames (R279, R280) -/

/-- The frame types of R280. -/
abbrev FT_IDLE : Nat := 0
abbrev FT_DATA : Nat := 1
abbrev FT_COLL : Nat := 2
abbrev FT_NOTICE : Nat := 3
abbrev FT_DISC : Nat := 4
abbrev FT_TIME : Nat := 5

/-- A frame of a type with a payload; ATTEMPT, DTAG, BLK and DEST_SEAT zero (R280). -/
def Frame.plain (type : Nat) (payload : List Byte) : Frame :=
  { type, poison := false, attempt := 0, dtag := 0, blk := 0, dest := 0, data := BitVec.ofNat 2048 (leNat payload) }

/-- The IDLE frame. -/
def Frame.idle : Frame := Frame.plain FT_IDLE []

/-- A NOTICE frame. -/
def Frame.notice (n : Notice) : Frame := Frame.plain FT_NOTICE n.bytes

/-- A TIME frame: the sender's count and the root-clock phase of its transmission. -/
def Frame.time (tick : W64) (phase : Nat) : Frame := Frame.plain FT_TIME (leBytes 8 tick.toNat ++ leBytes 2 phase)

/-- The twelve bytes of a header (R280). -/
def Frame.header (f : Frame) (h : FrameHead) : List Byte :=
  leBytes 1 (f.type + ofBool f.poison * 16 + ofBool h.nak * 32) ++ leBytes 1 f.attempt ++ leBytes 2 h.seq.toNat ++
    leBytes 2 h.ackseq.toNat ++ leBytes 2 f.dtag ++ leBytes 2 f.blk ++ leBytes 2 f.dest

/-- The 272 bytes of a frame (R279). -/
def Frame.bytes (f : Frame) (h : FrameHead) : List Byte := sealed (f.header h ++ leBytes 256 f.data.toNat)

/-- The bits of a header that R280 says are zero, and the types it reserves. -/
def headerBad (b : List Byte) : Bool :=
  let at_ := fun i => (b.getD i 0).toNat
  decide (at_ 0 / 64 ≠ 0) || decide (at_ 0 % 16 > 5) || decide (at_ 9 / 64 ≠ 0) || decide (at_ 11 / 4 ≠ 0)

/-- What 272 received bytes spell; none where the CRC fails, whatever the frame claims to be (R281). -/
def frameOf (b : List Byte) : Option (FrameHead × Frame) :=
  let num := fun i n => leNat ((b.drop i).take n)
  if b.length ≠ 272 ∨ b ≠ sealed (b.take 268) then none
  else some
    ({ seq := BitVec.ofNat 16 (num 2 2), ackseq := BitVec.ofNat 16 (num 4 2), nak := num 0 1 / 32 % 2 == 1, rsv := headerBad b },
     { type := num 0 1 % 16, poison := num 0 1 / 16 % 2 == 1, attempt := num 1 1, dtag := num 6 2, blk := num 8 2 % 2 ^ 14,
       dest := num 10 2 % 2 ^ 10, data := BitVec.ofNat 2048 (num 12 256) })

/-- The bytes that each lane of a set carries: byte k of the frame on lane k mod w, in ascending lane order (R279). -/
def striped (lanes : List Nat) (b : List Byte) : List (Nat × List Byte) :=
  lanes.mapIdx fun j l => (l, (List.range b.length).filterMap fun k => if k % lanes.length = j then b[k]? else none)

/-! ### Crix frames (R329) -/

/-- The 268 bytes of a Crix frame. -/
def crixBytes (type : Nat) (ch nak sor : Bool) (seq ackseq : BitVec 16) (cred0 cred1 : Nat) (payload : List Byte) : List Byte :=
  sealed (leBytes 1 (type + ofBool ch * 16 + ofBool nak * 32 + ofBool sor * 64) ++ leBytes 1 cred0 ++ leBytes 2 seq.toNat ++
    leBytes 2 ackseq.toNat ++ leBytes 2 cred1 ++ (payload ++ List.replicate (256 - payload.length) 0).take 256)

end Sys2Proof.Machine
end

