-- ==== Sys2Proof/Machine/Fabric.lean ====
section
/-! DEFINITION. The fabric: tower gateways, sequenced frames handed to links, discarded blocks (12 R286, R288), receive
buffers, and the collective engines (13 R301 to R311). -/

namespace Sys2Proof.Machine

/-! ### Gateways and links -/

/-- Blocks cross a tower's fabric gateway (R350 class 9, R423 event 0x80). -/
def State.gateway (s : State) (t : Tower) (n : Nat) : State :=
  let x := s.towerPower t
  (s.setPower t { x with counts := x.counts.set 9 (x.counts[9] + n) }).gpmu 0x80 (fun q => q / 2 ^ t.val % 2 * n)

/-- The tower whose gateway a block passes between a core of tower t and link die d, where that takes two hops: the neighbour
of t adjacent to d (R11). -/
def passTower (t : Tower) (d : Nat) : Option Tower :=
  if d % 4 = (t.val + 1) % 4 then some ⟨(t.val + 1) % 4, Nat.mod_lt _ (by decide)⟩
  else if d % 4 = (t.val + 2) % 4 then some ⟨(t.val + 3) % 4, Nat.mod_lt _ (by decide)⟩ else none

/-- Blocks cross the fabric between a core of tower t and link die d: the tower's own gateway, and the one passed through
(R11). -/
def State.crossDie (s : State) (t : Tower) (d n : Nat) : State :=
  let s := s.gateway t n
  match passTower t d with
  | some u => s.gateway u n
  | none => s

/-- Blocks leave a core of tower t for a core of tower u of the module: t's gateway, and that of tower t + 1 where u lies across
the ring (R11); u's gateway is crossed when they are received. -/
def State.crossTower (s : State) (t u : Tower) (n : Nat) : State :=
  let s := s.gateway t n
  if u.val = (t.val + 2) % 4 then s.gateway ⟨(t.val + 1) % 4, Nat.mod_lt _ (by decide)⟩ n else s

/-- LNK_STAT.STATE. -/
def State.linkState (s : State) (l : LinkIx) : Nat := s.rd (Reg.LNK_STAT l) 2 0

/-- The codes of LNK_STAT.STATE. -/
abbrev LS_DISABLED : Nat := 0
abbrev LS_DOWN : Nat := 1
abbrev LS_TRAINING : Nat := 2
abbrev LS_DISCOVERY : Nat := 3
abbrev LS_UP : Nat := 4
abbrev LS_STANDBY : Nat := 5
abbrev LS_FENCED : Nat := 6
abbrev LS_FAILED : Nat := 7

/-- A link carries deal traffic and notices: it is UP and its admission rubber has come (R297). -/
def State.linkOpen (s : State) (l : LinkIx) : Bool :=
  s.linkState l == LS_UP && (match (s.link l).admission with | some u => decide (u.toNat ≤ s.rubber) | none => true)

/-- A block or frame is discarded and counted: DROP_LATE for kinds 1 and 2, else DROP_OTHER; LNK_DROP at most once per
link and rubber, or per millisecond when no deal runs (R286, R300). -/
def State.linkDrop (s : State) (l : LinkIx) (kind dtag : Nat) : State :=
  let s := if kind ≤ 2 then s.count (Reg.LNK_ERR_CNT l) 31 16 1 else s.count (Reg.LNK_ERR_CNT l) 15 0 1
  let key := if s.dealRuns then 2 * s.rubber else 2 * s.ms + 1
  let x := s.link l
  if x.dropped = some key then s
  else (s.setLink l { x with dropped := some key }).eventN 0x25 (dtag * 2 ^ 16 + kind * 2 ^ 8 + l.val) 0

/-- A sequenced frame joins those that a link has yet to send; on a link that is not open it is discarded. -/
def State.sendOn (s : State) (l : LinkIx) (f : Frame) (own : Bool) : State :=
  if s.linkOpen l then let x := s.link l; s.setLink l { x with out := x.out ++ [(f, own)] }
  else s.linkDrop l 5 f.dtag

/-! ### Frames that arrive (R281, R282) -/

/-- Frames flow: Align has been completed. -/
def State.aligned (s : State) (l : LinkIx) : Bool := [LS_DISCOVERY, LS_UP, LS_STANDBY, LS_FENCED].contains (s.linkState l)

/-- A frame is discarded and counted in DROP_OTHER (R281). -/
def State.badFrame (s : State) (l : LinkIx) : State := s.count (Reg.LNK_ERR_CNT l) 15 0 1

/-- ACKSEQ frees the buffered frames before it; a NAK sends again from it, once for each value (R282). -/
def Link.ack (x : Link) (ackseq : BitVec 16) (nak : Bool) : Link :=
  let k := match x.replay with
    | [] => 0
    | h :: _ => if (ackseq - h.seq).toNat ≤ x.replay.length then (ackseq - h.seq).toNat else 0
  let x := { x with replay := x.replay.drop k, cursor := x.cursor - k }
  if nak && x.lastNak != some ackseq then { x with lastNak := some ackseq, cursor := 0 } else x

/-- A frame with a good CRC arrives: framing holds; unless a reserved type or bit discards it, its ACKSEQ and NAK are taken
(R281, R282). None where no frame flows. -/
def State.frameIn (s : State) (l : LinkIx) (h : FrameHead) : Option State :=
  if !s.aligned l then none
  else
    let s := s.setLink l { s.link l with bad := 0 }
    if h.rsv then some (s.badFrame l) else some (s.setLink l ((s.link l).ack h.ackseq h.nak))

/-- The link a number names. -/
def linkOf (n : Nat) : Option LinkIx := if h : n < 48 then some ⟨n, h⟩ else none

/-! ### Receive buffers (R147, R286) -/

/-- The receive entries that carry a delivery tag: logical core, trick, index. -/
def State.receivers (s : State) (dtag : Nat) : List (Nat × Nat × Nat) :=
  match s.seat.deal with
  | none => []
  | some d =>
    (List.range 256).flatMap fun lc => (d.releaseOf s.variant lc).flatMap fun h =>
      (h.entries.mapIdx fun i e => (e, i)).filterMap fun x =>
        if x.1.kind = 1 ∧ x.1.dtag = dtag then some (lc, h.trick, x.2) else none

/-- The receive has issued in this rubber: its trick is past, or its entry has been used. -/
def State.received (s : State) (x : Nat × Nat × Nat) : Bool :=
  decide (x.2.1 < s.seat.trick.toNat) ||
    (x.2.1 == s.seat.trick.toNat && (match s.physOf x.1 with | some p => (s.core p).used.contains x.2.2 | none => false))

/-- Of receive entries, the one of the earliest trick. -/
def earliest (rs : List (Nat × Nat × Nat)) : Option (Nat × Nat × Nat) :=
  rs.foldl (fun b x => match b with
    | some y => if x.2.1 < y.2.1 then some x else some y
    | none => some x) none

/-- An arriving block of a delivery to this seat (R286): why it is discarded, else the logical core it is kept for. Where
tricks share a tag, it is the delivery of the earliest trick whose receive has not issued; `peer` is the receiver that the
send entry names, for a delivery inside the module (R14, R244). -/
def State.arrival (s : State) (attempt dtag die : Nat) (peer : Option Nat) : Nat ⊕ Nat :=
  if attempt ≠ s.attempt then .inl 1
  else
    let rs := (s.receivers dtag).filter fun x => match peer with | some c => x.1 == c | none => true
    if rs.isEmpty then .inl 3
    else match earliest (rs.filter fun x => !s.received x) with
      | none => .inl 2
      | some x => if die < 4 && decide ((s.seat.rx.countP fun b => b.die == die) ≥ 65536) then .inl 4 else .inr x.1

/-- A block kept in a receive buffer. -/
def State.keepBlock (s : State) (b : RxBlock) : State := { s with seat := { s.seat with rx := s.seat.rx ++ [b] } }

/-- A block of a delivery to a core of the module (R11): kept for the receiver that the send names, or lost where its receive
has issued or does not exist. -/
def State.deliverInside (s : State) (peer dtag blk : Nat) (b : Block) : State :=
  match s.arrival s.attempt dtag 4 (some peer) with
  | .inl _ => s
  | .inr lc => s.keepBlock { lcore := lc, dtag, blk, die := 4, block := b }

/-! ### Collective engines (R302 to R311) -/

/-- The block of an operand that an engine holds. -/
def Engine.operand (e : Engine) (dtag k b : Nat) : Option Block :=
  (e.operands.find? fun x => x.dtag == dtag && x.operand == k && x.blk == b).map (·.block)

/-- The block of a result that an engine has formed. -/
def Engine.result (e : Engine) (dtag b : Nat) : Option Block :=
  (e.results.find? fun x => x.dtag == dtag && x.blk == b).map (·.block)

/-- The rank of descriptor i among the descriptors of its kind, place and length. -/
def descRank (ds : List CollDesc) (i : Nat) : Nat :=
  match ds[i]? with
  | some x => (ds.take i).countP fun y => y.kind == x.kind && y.place == x.place && y.nblk == x.nblk
  | none => 0

/-- The descriptor that a put or get of a core covers: of those with its kind, core and length, the one of the rank that its
release entry has among the like entries of the core's trick (R303 condition 4, log entry 73). -/
def descAt (ds : List CollDesc) (kind place cnt rank : Nat) : Option CollDesc :=
  (ds.filter fun y => y.kind == kind && y.place == place && y.nblk == cnt)[rank]?

/-- The chain descriptor of another entry that matches chain descriptor i: of those that name its entry back, the one of its
rank among those that name that other entry (R303 condition 3). -/
def chainMatch (mine : List CollDesc) (i : Nat) (others : List CollDesc) (dtag : Nat) : Option CollDesc :=
  (mine[i]?).bind fun x =>
    (others.filter fun y => y.kind == 8 - x.kind && y.pdtag == dtag)[(mine.take i).countP fun y =>
      y.kind == x.kind && y.pdtag == x.pdtag]?

/-- The rows of a folded result that lie in block b (R306). -/
def CollEntry.rowsIn (c : CollEntry) (b : Nat) : List Nat :=
  (List.range c.rows).filter fun r => decide (544 * r < 256 * (b + 1) ∧ 256 * b < 544 * (r + 1))

/-- The blocks of an operand that hold a row. -/
def rowBlocks (r : Nat) : List Nat :=
  (List.range ((544 * r + 543) / 256 + 1 - 544 * r / 256)).map fun i => 544 * r / 256 + i

/-- The operand blocks that a result block reads. -/
def CollEntry.needs (c : CollEntry) (b : Nat) : List Nat :=
  if c.fold then ((c.rowsIn b).flatMap rowBlocks).eraseDups else [b]

/-- Every operand block that a result block reads is present. -/
def CollEntry.ready (c : CollEntry) (e : Engine) (b : Nat) : Bool :=
  (List.range c.nops).all fun k => (c.needs b).all fun i => (e.operand c.dtag k i).isSome

/-- The sum of grid values (R60, R305): the marker if any is the marker, else the exact sum, saturated; and whether it is
out of range. -/
def gridSum (xs : List Nat) : Nat × Bool × Bool :=
  if xs.any fun x => x == 2 ^ 63 then (2 ^ 63, false, true)
  else
    let t := (xs.map (signed 64)).sum
    if t.natAbs > 2 ^ 63 - 1 then ((if t < 0 then 2 ^ 63 + 1 else 2 ^ 63 - 1), true, false)
    else (unsigned 64 t, false, false)

/-- The row that an operand holds (R306), poisoned when any block that holds part of it is. -/
def CollEntry.rowOf (c : CollEntry) (e : Engine) (k r : Nat) : KvRow :=
  let bs := (rowBlocks r).map fun b => (e.operand c.dtag k b).getD { data := 0, poison := false }
  let bytes := bs.flatMap fun b => leBytes 256 b.data.toNat
  KvRow.ofBytes ((bytes.drop (544 * r - 256 * (544 * r / 256))).take 544) (bs.any (·.poison))

/-- A row folded over the operands in ascending order (R306). -/
def CollEntry.foldRow (c : CollEntry) (e : Engine) (r : Nat) : KvRow :=
  (((List.range (c.nops - 1)).map (· + 1)).foldl (fun a k => a.merge (c.rowOf e k r)) (c.rowOf e 0 r)).normalise c.norm

/-- What forming a result block sets: out of range, marker, NaN of a fold. -/
structure CollFlags where
  ovf : Bool
  invalid : Bool
  nan : Bool
  deriving DecidableEq, Repr

/-- A result block (R305 to R307) and its flags. -/
def CollEntry.form (c : CollEntry) (e : Engine) (b : Nat) : Block × CollFlags :=
  if c.fold then
    let rows := (c.rowsIn b).map fun r => (r, c.foldRow e r)
    let byte : Nat → Byte := fun i =>
      match rows.find? fun x => x.1 == (256 * b + i) / 544 with
      | some x => x.2.bytes.getD ((256 * b + i) % 544) 0
      | none => 0
    ({ data := BitVec.ofNat 2048 (leNat ((List.range 256).map byte)), poison := rows.any fun x => x.2.poison },
     ⟨false, false, rows.any fun x => x.2.hasNan⟩)
  else
    let ops := (List.range c.nops).map fun k => (e.operand c.dtag k b).getD { data := 0, poison := false }
    let poison := ops.any (·.poison)
    if c.op = 0 ∨ c.op = 2 then
      let sums := (List.range 32).map fun i => gridSum (ops.map fun o => lane o.data 64 i)
      ({ data := BitVec.ofNat 2048 (packNat 64 (sums.map (·.1))), poison },
       ⟨sums.any (·.2.1), sums.any (·.2.2), false⟩)
    else ({ data := ((ops.head?).map (·.data)).getD 0, poison }, ⟨false, false, false⟩)

/-- The engine of an entry. -/
def CollEntry.eng (c : CollEntry) : EngIx := ⟨c.engine % 4, Nat.mod_lt _ (by decide)⟩

/-- The result blocks begun of the present entries, which the engine holds (R301). -/
def Engine.occupied (e : Engine) : Nat := ((e.operands.map fun x => (x.dtag, x.blk)).eraseDups).length

/-- An engine event, at most once per entry and rubber (R311). -/
def State.engineEvent (s : State) (e : EngIx) (dtag code flagBit : Nat) (arg : Nat) : State :=
  let s := s.flag (Reg.TBL_COLL_FLAGS e) flagBit
  let x := s.engine e
  if x.raised.contains (dtag, code) then s
  else (s.setEngine e { x with raised := x.raised ++ [(dtag, code)] }).eventN code arg 0

/-- The flags and events of a result block. -/
def State.engineFlags (s : State) (c : CollEntry) (b : Nat) (f : CollFlags) : State :=
  let e := c.eng
  let arg := 2 ^ 63 + e.val * 2 ^ 48 + c.dtag * 2 ^ 32 + b
  let s := if f.ovf then s.engineEvent e c.dtag 0x00 0 arg else s
  let s := if f.invalid then s.engineEvent e c.dtag 0x01 1 arg else s
  if f.nan then s.flag (Reg.TBL_COLL_FLAGS e) 2 else s

/-- The link outputs of a result block: COLL frames to the downstream entry (R280, R309). -/
def State.sendResult (s : State) (c : CollEntry) (b : Nat) (x : Block) : State :=
  s.each (c.outs.filter fun o => o.kind == 5 && decide (o.first ≤ b ∧ b < o.first + o.nblk)) fun s o =>
    match linkOf o.place with
    | none => s
    | some l => s.sendOn l { type := 2, poison := x.poison, attempt := s.attempt, dtag := o.pdtag, blk := b - o.first,
                             dest := o.peer, data := x.data } true

/-- The entries that a chain output of an entry feeds with its block b: entry, operand, block. -/
def chainTargets (entries : List CollEntry) (c : CollEntry) (b : Nat) : List (CollEntry × Nat × Nat) :=
  (c.outs.mapIdx fun j o => (j, o)).flatMap fun jo =>
    if jo.2.kind = 6 ∧ jo.2.first ≤ b ∧ b < jo.2.first + jo.2.nblk then
      (entries.filter fun d => d.dtag == jo.2.pdtag && d.engine == c.engine).filterMap fun d =>
        (chainMatch c.outs jo.1 d.ins c.dtag).map fun i => (d, i.operand, i.first + (b - jo.2.first))
    else []

/-- A block joins an entry's operand, and every result block that is then complete is formed, sent and passed along its
chains (R304, R309); `fuel` bounds the length of a chain. -/
def State.engineIn (s : State) (c : CollEntry) (k b : Nat) (x : Block) : Nat → State
  | 0 => s
  | fuel + 1 =>
    let e := s.engine c.eng
    if e.abandoned.contains c.dtag || (e.operand c.dtag k b).isSome then s
    else
      let e := { e with operands := e.operands ++ [({ dtag := c.dtag, operand := k, blk := b, block := x } : EngBlock)] }
      let s := s.setEngine c.eng { e with peak := max e.peak e.occupied }
      ((List.range c.cnt).filter fun r => (c.needs r).contains b).foldl (fun (s : State) (r : Nat) =>
        let e := s.engine c.eng
        if c.ready e r && (e.result c.dtag r).isNone then
          let y := c.form e r
          let s := s.setEngine c.eng { e with results := e.results ++ [({ dtag := c.dtag, operand := 0, blk := r, block := y.1 } : EngBlock)] }
          let s := ((s.engineFlags c r y.2).gpmu 0x84 (fun q => q / 2 ^ c.engine % 2 * c.nops)).sendResult c r y.1
          (chainTargets s.collEntries c r).foldl (fun s t => s.engineIn t.1 t.2.1 t.2.2 y.1 fuel) s
        else s) s

/-- Entries of the current trick (R302, R304). -/
def State.entriesNow (s : State) : List CollEntry := s.collEntries.filter fun c => c.trick == s.seat.trick.toNat

/-- A block handed to an entry. -/
def State.engineBlock (s : State) (c : CollEntry) (k b : Nat) (x : Block) : State :=
  s.engineIn c k b x (s.entriesNow.length + 1)

/-- An arriving COLL frame for this seat (R304): it joins the entry its DTAG names as a block of the link input that its
sending seat, its link and its tag name, or is discarded. -/
def State.collArrive (s : State) (l : LinkIx) (f : Frame) (sender : Nat) : State :=
  if f.attempt ≠ s.attempt then s.linkDrop l 1 f.dtag
  else
    match (s.entriesNow.filter fun c => c.dtag == f.dtag && c.engine == l.val / 12).findSome? fun c =>
      (c.ins.find? fun i => i.kind == 1 && i.place == l.val && i.peer == sender && decide (f.blk < i.nblk)).map fun i => (c, i) with
    | none => s.linkDrop l 3 f.dtag
    | some (c, i) =>
      if ((s.engine c.eng).operand c.dtag i.operand (i.first + f.blk)).isSome then s.linkDrop l 3 f.dtag
      else s.engineBlock c i.operand (i.first + f.blk) { data := f.data, poison := f.poison }

/-! ### Statistics and the end of a trick (R309, R310) -/

/-- The squared norm of values, in order, as a binary64 sum (R310), with the number of values; the marker is skipped. -/
def normSum (g : Int) (acc : Nat × Nat) (b : Block) : Nat × Nat :=
  if b.poison then acc
  else (lanes b.data 64 32).foldl (fun a v =>
    if v = 2 ^ 63 then a
    else
      let x := num64 (rne64 (Num.ofInt (signed 64 v)))
      let x := match x with | .fin s m e => Num.fin s m (e + g) | y => y
      (add64 a.1 (rne64 (x.mul x)), a.2 + 1)) acc

/-- The statistics of a completed entry (R310): L over the operands filled by local puts, S over the result. -/
def CollEntry.statsOf (c : CollEntry) (e : Engine) : EngStats :=
  let localOps := (List.range c.nops).filter fun k => c.ins.any fun i => i.operand == k && i.kind == 0
  let l := (List.range c.cnt).foldl (fun a b => localOps.foldl (fun a k =>
    match e.operand c.dtag k b with | some x => normSum c.g a x | none => a) a) (0, 0)
  let r := (List.range c.cnt).foldl (fun a b =>
    match e.result c.dtag b with | some x => normSum c.g a x | none => a) (0, 0)
  { dtag := c.dtag, l := l.1, s := r.1, cntL := l.2, cntS := r.2 }

/-- The first input descriptor of an entry with a block missing. -/
def CollEntry.missing (c : CollEntry) (e : Engine) : Option Nat :=
  c.ins.findIdx? fun i => (List.range i.nblk).any fun j => (e.operand c.dtag i.operand (i.first + j)).isNone

/-- An entry at the end of its trick: abandoned with COLL_INCOMPLETE if it lacks an input block (R309), else done, with
its statistics; its storage is free. -/
def State.endEntry (s : State) (c : CollEntry) : State :=
  let e := s.engine c.eng
  let clear (e : Engine) : Engine :=
    { e with operands := e.operands.filter (fun x => x.dtag != c.dtag),
             results := e.results.filter (fun x => x.dtag != c.dtag) }
  match c.missing e with
  | some i =>
    let s := s.setEngine c.eng (clear { e with abandoned := e.abandoned ++ [c.dtag] })
    (s.wr (Reg.TBL_COLL_STAT c.eng) 47 32 c.dtag).engineEvent c.eng c.dtag 0x28 3
      (c.eng.val * 2 ^ 48 + c.dtag * 2 ^ 32 + i)
  | none =>
    let st := if c.stats then e.stats ++ [c.statsOf e] else e.stats
    s.setEngine c.eng (clear { e with stats := st, done := e.done + 1 })

/-- The entries of the ending trick end with it. -/
def State.endEntries (s : State) : State := s.each s.entriesNow State.endEntry

/-- An entry's statistics put among others in ascending DTAG. -/
def placeStats (x : EngStats) : List EngStats → List EngStats
  | [] => [x]
  | y :: ys => if x.dtag ≤ y.dtag then x :: y :: ys else y :: placeStats x ys

/-- The engines at the end of a rubber completed without a notice (R310, R311): counts and sums are latched. -/
def State.latchEngines (s : State) : State :=
  s.each allEngines fun s e =>
    let x := s.engine e
    let st := x.stats.foldr placeStats []
    let l := st.foldl (fun a y => add64 a y.l) 0
    let r := st.foldl (fun a y => add64 a y.s) 0
    let s := s.wr (Reg.TBL_COLL_STAT e) 63 48 x.done
    let s := (s.setReg (Reg.TBL_COLL_NORM_LOCAL e) (BitVec.ofNat 64 l)).setReg (Reg.TBL_COLL_NORM_RESULT e) (BitVec.ofNat 64 r)
    s.setReg (Reg.TBL_COLL_NORM_CNT e)
      (BitVec.ofNat 64 ((st.map (·.cntS)).sum % 2 ^ 32 * 2 ^ 32 + (st.map (·.cntL)).sum % 2 ^ 32))

/-- The highest count of blocks held in a rubber is noted as it ends (R311). -/
def State.latchOccupancy (s : State) : State :=
  s.each allEngines fun s e => s.wr (Reg.TBL_COLL_STAT e) 14 0 (s.engine e).peak

/-- Every engine cleared for a new rubber or a replay (R254). -/
def State.clearEngines (s : State) : State := { s with engines := Vector.replicate 4 Engine.reset }

end Sys2Proof.Machine
end

