-- ==== Sys2Proof/Machine/Scratch.lean ====
section
/-! DEFINITION. Scalar scratch access (R108), local control access (R81, R109), schedule counters (R110) and the
synchronisation instructions (R113 to R115) of slot 0; revokes (R247) and the deadline event (R85). -/

namespace Sys2Proof.Machine

/-! ### Scalar scratch -/

/-- LDS sd, [sa + IMM] (R108): 8 bytes of scratch, poisoned where the word is; a poisoned address is a sink of kind 5
and loads a poisoned zero (R88); an address outside scratch or not aligned raises CORE_ADDRESS (R79). -/
def execLds (k : At) (pg : PReg) (sd sa : SReg) (imm : BitVec 40) (s : State) : Out :=
  .next (s.issue k 0 (wordSI 0x50 pg sd.val sa.val imm) (s.ldsBlocked k.core pg sa imm) fun s =>
    let p := k.core
    let r := s.src p
    let a := r.ea sa imm
    match r.guard pg with
    | .poisoned => s.mapRegs p fun r => r.sTaint sd
    | .off => s
    | .on =>
      if r.sTag sa then (s.sink p 5 0).mapRegs p fun r => r.sPut sd 0 true
      else if scratchOk a.toNat 8 then
        let c := s.core p
        ((s.scratched p 0 1).noteAddr p 0 0 a).mapRegs p fun r =>
          r.sPut sd (BitVec.ofNat 64 (c.scratch.num a.toNat 8)) (c.scratchTag a.toNat)
      else s.coreAddress p 0 a 0)

/-- STS sd, [sa + IMM] (R108): the 8 bytes take sd; a poisoned sd poisons the whole word. Under a poisoned guard the
word keeps its bytes and is poisoned, or the instruction is a sink of kind 5 (R446). -/
def execSts (k : At) (pg : PReg) (sd sa : SReg) (imm : BitVec 40) (s : State) : Out :=
  .next (s.issue k 0 (wordSI 0x51 pg sd.val sa.val imm) (s.stsBlocked k.core pg sa imm) fun s =>
    let p := k.core
    let r := s.src p
    let a := r.ea sa imm
    match r.guard pg with
    | .poisoned =>
      if !r.sTag sa && scratchOk a.toNat 8 then s.setCore p ((s.core p).setTag a.toNat true) else s.sink p 5 0
    | .off => s
    | .on =>
      if r.sTag sa then s.sink p 5 0
      else if scratchOk a.toNat 8 then
        let s := (s.scratched p 0 1).noteAddr p 0 0 a
        s.setCore p ((s.core p).writePart a.toNat (leBytes 8 (r.sGet sd).toNat) (r.sTag sd))
      else s.coreAddress p 0 a 0)

/-! ### Local control (R81, R109) -/

/-- The control address of a hand-visible register at an offset of the local control space (R81). -/
def localReg (p : PCore) (o : W64) : Option Nat :=
  if o = 0 ∨ o = 0x200 ∨ o = 0x208 ∨ o = 0x210 ∨ o = 0x218 then some (coreBase p + o.toNat) else none

/-- CRD sd, IMM (R109): a hand-visible register; any other offset raises CORE_ADDRESS (R79, R81). -/
def execCrd (k : At) (pg : PReg) (sd : SReg) (imm : BitVec 40) (s : State) : Out :=
  .next (s.issue k 0 (wordSI 0x58 pg sd.val 0 imm) none fun s =>
    let p := k.core
    let o := imm.signExtend 64
    match (s.src p).guard pg with
    | .poisoned => s.mapRegs p fun r => r.sTaint sd
    | .off => s
    | .on =>
      match localReg p o with
      | some a => s.mapRegs p fun r => r.sPut sd (s.reg a) false
      | none => s.coreAddress p 3 o 0)

/-- CWR sd, IMM (R109): W1C to CORE_NUM_FLAGS, RW to CORE_NUM_EVENT_EN, nothing to the other hand-visible registers (a
flag that is set in the same cycle stays, R6); a poisoned source or guard writes nothing and is a sink of kind 7 (R88). -/
def execCwr (k : At) (pg : PReg) (sd : SReg) (imm : BitVec 40) (s : State) : Out :=
  .next (s.issue k 0 (wordSI 0x59 pg sd.val 0 imm) none fun s =>
    let p := k.core
    let r := s.src p
    let o := imm.signExtend 64
    match r.guard pg with
    | .poisoned => s.sink p 7 0
    | .off => s
    | .on =>
      if r.sTag sd then s.sink p 7 0
      else match localReg p o with
        | some a =>
          match regRow a with
          | some row => s.setReg a (row.write (s.reg a) (r.sGet sd &&& ~~~ (rangesMask row.w1c &&& s.guardedAt a)))
          | none => s
        | none => s.coreAddress p 3 o 0)

/-- The schedule counter that IMM[1:0] selects (R110). -/
def State.counter (s : State) (sel : Nat) : W64 :=
  match sel with
  | 0 => BitVec.ofNat 64 s.rubber
  | 1 => s.seat.trick.setWidth 64
  | 2 => s.seat.cycle.setWidth 64
  | _ => s.tag

/-- CTR sd, IMM (R110). -/
def execCtr (k : At) (pg : PReg) (sd : SReg) (imm : BitVec 40) (s : State) : Out :=
  .next (s.issue k 0 (wordSI 0x5C pg sd.val 0 imm) none fun s =>
    s.putScalar k.core ((s.src k.core).guard pg) sd (s.counter (fld imm 1 0)) false)

/-- The event that a bundle's deadline has passed before it issued (R85, R114). -/
def execRevokeDeadline (c : PCore) (s : State) : Out := .next (s.detect c)

/-! ### Synchronisation (R113 to R115) -/

/-- The margin of a bundle that issues with a deadline: the least of deadline minus issue cycle (R272). -/
def State.noteMargin (s : State) (dv : Bool) (d : BitVec 24) : State :=
  if dv && s.seat.cycle.ule d && decide (d.toNat - s.seat.cycle.toNat < s.seat.margin.1) then
    { s with seat := { s.seat with margin := (d.toNat - s.seat.cycle.toNat, s.seat.trick.toNat) } }
  else s

/-- TIME (R113): the bundle's earliest cycle is E if EV, its deadline cycle D if DV, in cycles of its own trick; the issue of
the bundle holds it and detects the deadline. -/
def execTime (k : At) (ev dv : Bool) (e d : BitVec 24) (s : State) : Out :=
  .next (s.issue k 0 (wordST 0x70 ev dv e d) none fun t => if s.ownTrick k.core = s.seat.trick then t.noteMargin dv d else t)

/-- TBAR T (R114): the bundle waits for cycle 0 of trick T; later it is a revoke and issues at once. -/
def execTbar (k : At) (t : BitVec 24) (s : State) : Out :=
  .next (s.issue k 0 (wordST 0x71 false false t 0) none fun s => s)

/-- REND (R115): the bundle issues at once; the core then issues nothing until the next rubber start. -/
def execRend (k : At) (s : State) : Out :=
  .next (s.issue k 0 (wordST 0x72 false false 0 0) none fun s =>
    s.setCore k.core { s.core k.core with ended := true })

/-! ### Illegal bundles (R72) -/

/-- The core fetches the bundle at its next index; if it is illegal, CORE_ILLEGAL reports the lowest reason and the
lowest slot to which it applies, 0 for flow past bundle 8,191 (R72). A legal bundle is left to its instructions. -/
def execCoreIllegal (c : PCore) (s : State) : Out :=
  .next (
    if s.canIssue { core := c, lead := true } then
      let n := (s.core c).next
      if n > 8191 then s.illegal c 5 0 8191
      else match s.bundleBad c ((s.core c).bundleWords n) with
        | some x => s.illegal c x.1 x.2 (BitVec.ofNat 13 n)
        | none => s
    else s)

end Sys2Proof.Machine
end

