-- ==== Sys2Proof/Machine/Transfer.lean ====
section
/-! DEFINITION. Slot 3 (06 R127, R140 to R154): vault and sequence transfers, deliveries, collective hand-offs, the issue
of in-bank operations and KV-attend, and translation queries. -/

namespace Sys2Proof.Machine

/-! ### The transfer queue (R141) -/

/-- Bytes of a vault. -/
abbrev vaultSize : Nat := 2 ^ 30

/-- Consecutive numbers from a first. -/
def run (a n : Nat) : List Nat := (List.range n).map (a + ·)

/-- The transfer queue without its head. -/
def State.popXfer (s : State) (p : PCore) : State :=
  let c := s.core p
  s.setCore p { c with xq := c.xq.drop 1 }

/-- The head of the transfer queue replaced. -/
def State.setHead (s : State) (p : PCore) (x : Xfer) : State :=
  let c := s.core p
  s.setCore p { c with xq := x :: c.xq.drop 1 }

/-- The bursts of a list of word indices in order. -/
def burstsOf (ws : List Nat) : List (List Nat) :=
  (ws.map (· / 8)).eraseDups.map fun b => ws.filter fun w => w / 8 == b

/-- The words of a store's bursts as they stand. -/
def State.heldWords (s : State) (p : PCore) (ws : List Nat) : List Stored := ws.map (s.vget p)

/-- The bursts whose status may be reported from now on: those of a new store, behind those that still wait for their re-send,
which follow what the store has put into their words (R177). -/
def State.keepBursts (s : State) (p : PCore) (ws : List Nat) (new : List WriteBurst) : State :=
  let v := (s.core p).vault
  let newer (b : WriteBurst) (xs : List Stored) : List Stored :=
    (b.words.zip xs).map fun x => if ws.contains x.1 then s.vget p x.1 else x.2
  let waiting := (v.bursts.filter (·.pending)).map fun b => { b with old := newer b b.old, new := newer b b.new }
  s.setVault p { v with bursts := waiting ++ new }

/-- A step that writes words, with their bursts' commands, and the bursts kept while their status may be reported (R175 to
R178). -/
def State.storing (s : State) (p : PCore) (ws : List Nat) (ap ofHand : Bool) (bundle : BitVec 13) (f : State → State) : State :=
  let bs := burstsOf ws
  let old := bs.map (s.heldWords p)
  let s := f s
  let s := s.each bs fun s b => (s.placeBurst p 2 ap b).blocksMoved p (blocksIn b)
  s.keepBursts p ws ((bs.zip old).map fun x =>
    { words := x.1, old := x.2, new := s.heldWords p x.1, fails := 0, pending := false, kind := 2, ofHand, bundle, flips := [] })

/-- A store of the hand as a step over its words. -/
def State.storeAll (s : State) (p : PCore) (ws : List Nat) (bundle : BitVec 13) (f : State → Nat → State) : State :=
  s.storing p ws false true bundle fun s => s.each ws fun s w => (f s w).channelWord p w true

/-- A byte of a 256-bit word. -/
def byteOf (d : BitVec 256) (i : Nat) : Byte := d.extractLsb' (8 * i) 8

/-- A VSTORE of whole words takes effect (R144): each takes its scratch word, the generation tag, and the poison. -/
def State.performStore (s : State) (p : PCore) (x : Xfer) (a : Nat) (ws : List Nat) (gen : Nat) (fill all : Bool) : State :=
  let c := s.core p
  let src := ws.mapIdx fun i w => (w, c.readWord (a + 32 * i))
  let s := s.storeAll p ws x.bundle fun s w =>
    match src.find? fun y => y.1 == w with
    | none => s
    | some y => s.storeWord p w (fun i => some (byteOf y.2.1 i)) true gen (y.2.2 || all) fill x.bundle
  if all || src.any (fun y => y.2.2) then s.sinkAt p 2 3 x.bundle else s

/-- A VSTORE of 8-byte units takes effect (R144, R181, R182): words covered whole are written directly, others by
read-modify-write. -/
def State.performStore8 (s : State) (p : PCore) (x : Xfer) (a : Nat) (us : List Nat) (gen : Nat) (fill all : Bool) : State :=
  let c := s.core p
  let units := us.mapIdx fun i v => (v, c.scratch.bytes (a + 8 * i) 8, c.scratchTag (a + 8 * i))
  let ws := (us.map (· / 32)).eraseDups
  let mine := fun w => units.filter fun u => u.1 / 32 == w
  let partWords := ws.filter fun w => decide ((mine w).length < 4)
  let s := s.pmu p 0x23 (fun _ => (burstsOf partWords).length)
  let s := s.storeAll p ws x.bundle fun s w =>
    let new : Nat → Option Byte := fun i =>
      ((mine w).find? fun u => u.1 % 32 / 8 == i / 8).map fun u => u.2.1.getD (i % 8) 0
    s.storeWord p w new (decide ((mine w).length ≥ 4)) gen ((mine w).any (fun u => u.2.2) || all) fill x.bundle
  if all || units.any (fun u => u.2.2) then s.sinkAt p 2 3 x.bundle else s

/-- Stores and poisoned commands take effect as they reach the head of the queue (R73, R127, R141). -/
def State.advanceXq (s : State) (p : PCore) : Nat → State
  | 0 => s
  | n + 1 =>
    match (s.core p).xq with
    | [] => s
    | x :: _ =>
      match x.op with
      | .store a ws gen fill all => ((s.performStore p x a ws gen fill all).popXfer p).advanceXq p n
      | .store8 a us gen fill all => ((s.performStore8 p x a us gen fill all).popXfer p).advanceXq p n
      | .taint rs =>
        (((s.setCore p (rs.foldl (fun c r => c.taint r.1 r.2) (s.core p)))).popXfer p).advanceXq p n
      | _ => s

/-- Another slot-3 instruction holds a transfer-queue entry for its time (R141): on a block port, behind the instructions that
the port serves already (R447), or on none. -/
def State.holdEntry (s : State) (p : PCore) (port : Option Bool) (cycles : Nat) : State :=
  let c := s.core p
  let before := match port with
    | none => 0
    | some _ => ((c.ports.filter fun h => h.port == port).map (·.left)).foldl max 0
  s.setCore p { c with ports := c.ports ++ [{ port, left := before + cycles }] }

/-- The end of a cycle for the entries held beside the vault transfers. -/
def State.portCycle (s : State) (p : PCore) : State :=
  let c := s.core p
  if c.ports = [] then s
  else s.setCore p { c with ports := (c.ports.map fun h => { h with left := h.left - 1 }).filter fun h => h.left != 0 }

/-- A transfer joins the queue. -/
def State.enqueue (s : State) (p : PCore) (op : XferOp) : State :=
  let c := s.core p
  let x : Xfer := { op, done := 0, bundle := c.bundle, fails := 0 }
  (s.setCore p { c with xq := c.xq ++ [x] }).advanceXq p 17

/-- A transfer under a poisoned guard takes its entry in issue order; in its turn the words of its scratch destination are
poisoned, where the address is clean and in range (R127). -/
def State.taintLater (s : State) (p : PCore) (clean : Bool) (a n : Nat) : State :=
  s.enqueue p (.taint (if clean && decide (a % 32 = 0 ∧ a + n ≤ scratchSize) then [(a, n)] else []))

/-- Zeros with their tags set in a scratch range (R80, R88). -/
def Core.zeroTaint (c : Core) (a n : Nat) : Core :=
  { c with scratch := c.scratch.store a (List.replicate n 0) }.taint a n

/-! ### VLOAD and VSTORE -/

/-- The alignment that U selects (R142). -/
def XForm.align (f : XForm) : Nat := if f.u then 8 else 32

/-- The vault or sequence address of a transfer fails R142. -/
def XForm.badPlace (f : XForm) (a : W64) : Bool :=
  a.toNat % f.align != 0 || (!f.spc && decide (a.toNat + f.bytes > vaultSize))

/-- The scratch address of a transfer fails R142. -/
def XForm.badScratch (f : XForm) (a : W64) : Bool := a.toNat % f.align != 0 || decide (a.toNat + f.bytes > scratchSize)

/-- The space code of SPC: 1 vault, 2 sequence. -/
def XForm.space (f : XForm) : Nat := if f.spc then 2 else 1

/-- The vault addresses of n units of `size` bytes from an address, each translated. -/
def State.places (s : State) (p : PCore) (f : XForm) (a : W64) (size : Nat) : List Nat :=
  (List.range f.cnt.toNat).map fun i => s.vaddr p f.spc (a + BitVec.ofNat 64 (i * size))

/-- VLOAD.V, VLOAD.Q (R142, R143). -/
def execVload (k : At) (f : XForm) (s : State) : Out :=
  .next (s.issue k 3 (f.word 0x01) (s.xBlocked k.core f [] [] (scratchRange f f.bytes (s.core k.core).regs)) fun s =>
    let p := k.core
    let r := s.src p
    let dst := r.sGet f.sx
    let a := r.sGet f.sy
    match r.guard f.pg with
    | .off => s
    | .poisoned => (s.sink p 5 3).taintLater p (!r.sTag f.sx) dst.toNat f.bytes
    | .on =>
      if r.sTag f.sx || r.sTag f.sy then
        let s := s.sink p 5 3
        if r.sTag f.sx || f.badScratch dst then s else s.setCore p ((s.core p).zeroTaint dst.toNat f.bytes)
      else if f.badPlace a then s.coreAddress p f.space a 3
      else if f.badScratch dst then s.coreAddress p 0 dst 3
      else
        let s := s.noteAddr p 3 f.space a
        let pages := if f.spc then pagesOf a f.bytes else []
        let s := s.translated p pages.length
        match s.badPage p pages with
        | some b => (s.xlateEvent p b.1 b.2).setCore p (((s.xlateEvent p b.1 b.2).core p).zeroTaint dst.toNat f.bytes)
        | none => s.enqueue p (.load dst.toNat ((s.places p f a 32).map (· / 32))))

/-- The generation tag that TAG selects (R144). -/
def State.storeGen (s : State) (f : XForm) (r : RegFile) : Nat :=
  if f.tag = 1 then s.rubber % 16 else if f.tag = 2 then fld (r.sGet f.sz) 3 0 else 0

/-- VSTORE.V, VSTORE.Q (R142 to R144). -/
def execVstore (k : At) (f : XForm) (s : State) : Out :=
  .next (s.issue k 3 (f.word 0x02) (s.xBlocked k.core f [] (scratchRange f f.bytes (s.core k.core).regs) []) fun s =>
    let p := k.core
    let r := s.src p
    let src := r.sGet f.sx
    let a := r.sGet f.sy
    match r.guard f.pg with
    | .off => s
    | .poisoned => (s.sink p 5 3).enqueue p (.taint [])
    | .on =>
      if r.sTag f.sx || r.sTag f.sy then s.sink p 5 3
      else if f.badPlace a then s.coreAddress p f.space a 3
      else if f.badScratch src then s.coreAddress p 0 src 3
      else
        let s := s.noteAddr p 3 f.space a
        let pages := if f.spc then pagesOf a f.bytes else []
        let s := s.translated p pages.length
        let all := f.tag == 2 && r.sTag f.sz
        match s.badPage p pages with
        | some b => s.xlateEvent p b.1 b.2
        | none =>
          if f.u then s.enqueue p (.store8 src.toNat (s.places p f a 8) (s.storeGen f r) (f.tag == 2) all)
          else s.enqueue p (.store src.toNat ((s.places p f a 32).map (· / 32)) (s.storeGen f r) (f.tag == 2) all))

/-! ### Deliveries and collectives (R145 to R148) -/

/-- XFER_MISMATCH (R145). -/
def State.mismatch (s : State) (p : PCore) (op : Nat) (f : XForm) : State :=
  s.raise p 0x3A (BitVec.ofNat 64 (op * 2 ^ 32 + f.cnt.toNat * 2 ^ 16 + f.idx.toNat)) REQ_STOP 3

/-- The release entry of a delivery instruction, if it matches (R145). -/
def State.entryFor (s : State) (p : PCore) (f : XForm) (kind : Nat) : Option RelEntry :=
  match (s.releases p)[f.idx.toNat]? with
  | none => none
  | some e =>
    if e.kind = kind ∧ e.cnt = f.cnt.toNat ∧ (s.core p).used.contains f.idx.toNat = false then some e else none

/-- The entry has been used in this trick. -/
def State.useEntry (s : State) (p : PCore) (f : XForm) : State :=
  let c := s.core p
  s.setCore p { c with used := c.used ++ [f.idx.toNat] }

/-- A 256-byte block of scratch with its poison mark (R146). -/
def Core.block (c : Core) (a : Nat) : Block :=
  { data := BitVec.ofNat 2048 (c.scratch.num a 256), poison := c.scratchTainted a 256 }

/-- A delivery instruction under its guard and checks (the read port serves LSEND and CPUT, the write port LRECV and CGET, four
cycles for each block, R447): an entry that matches, a clean address in scratch (R79, R88, R127,
R145). -/
def State.delivery (s : State) (p : PCore) (op : Nat) (f : XForm) (kind : Nat) (dest : Bool)
    (eff : State → RelEntry → Nat → State) : State :=
  let r := s.src p
  let a := r.sGet f.sx
  let n := 256 * f.cnt.toNat
  match r.guard f.pg with
  | .off => s
  | .poisoned =>
    if dest then
      let t := (s.sink p 5 3).holdEntry p (some true) 1
      if !r.sTag f.sx && decide (a.toNat % 32 = 0 ∧ a.toNat + n ≤ scratchSize) then t.setCore p ((t.core p).taint a.toNat n)
      else t
    else (s.sink p 5 3).holdEntry p (some false) 1
  | .on =>
    if r.sTag f.sx then s.sink p 5 3
    else
      match s.entryFor p f kind with
      | none => s.mismatch p op f
      | some e =>
        if a.toNat % 32 != 0 || decide (a.toNat + n > scratchSize) then s.coreAddress p 0 a 3
        else eff ((s.useEntry p f).holdEntry p (some dest) (4 * f.cnt.toNat)) e a.toNat

/-- LSEND idx, [sx], cnt (R146): the blocks leave for the entry's peer; poisoned data makes it a sink of kind 3. -/
def execLsend (k : At) (f : XForm) (s : State) : Out :=
  .next (s.issue k 3 (f.word 0x10) (s.xBlocked k.core f [] (scratchRange f (256 * f.cnt.toNat) (s.core k.core).regs) []) fun s =>
    s.delivery k.core 0x10 f 0 false fun s e a =>
      let p := k.core
      let bs := (List.range f.cnt.toNat).map fun i => (i, (s.core p).block (a + 256 * i))
      let s := s.pmu p 0x30 (fun _ => f.cnt.toNat)
      let s := match linkOf e.link with
        | some l => s.crossDie (towerOf p) (l.val / 12) f.cnt.toNat
        | none => s.crossTower (towerOf p) ⟨e.peerLcore / 64 % 4, Nat.mod_lt _ (by decide)⟩ f.cnt.toNat
      let s := s.each bs fun s b =>
        match linkOf e.link with
        | some l => s.sendOn l { type := 1, poison := b.2.poison, attempt := s.attempt, dtag := e.dtag, blk := b.1,
                                 dest := e.peerSeat, data := b.2.data } true
        | none => s.deliverInside e.peerLcore e.dtag b.1 b.2
      if bs.any (fun b => b.2.poison) then s.sink p 3 3 else s)

/-- Blocks written to scratch, the missing ones as poisoned zeros (R147). -/
def Core.putBlocks (c : Core) (a : Nat) (bs : List (Option Block)) : Core :=
  (bs.mapIdx fun i b => (i, b)).foldl (fun c ib =>
    match ib.2 with
    | none => c.zeroTaint (a + 256 * ib.1) 256
    | some b =>
      (List.range 8).foldl (fun c j =>
        c.writeWord (a + 256 * ib.1 + 32 * j) (b.data.extractLsb' (256 * j) 256) b.poison) c) c

/-- A receive or collective get copies its blocks (R147), each from a link die or, where the die is 4, from the module's
fabric (R11): a missing block is a revoke of kind 4. -/
def State.receive (s : State) (p : PCore) (f : XForm) (e : RelEntry) (a : Nat) (got : List (Option (Nat × Block))) : State :=
  let bs := got.map fun x => x.map (·.2)
  let s := s.pmu p 0x31 (fun _ => f.cnt.toNat)
  let s := s.each (List.range 5) fun s d =>
    match got.countP fun x => x.map (·.1) == some d with
    | 0 => s
    | n => if d < 4 then s.crossDie (towerOf p) d n else s.gateway (towerOf p) n
  let s := s.setCore p ((s.core p).putBlocks a bs)
  let missing := bs.countP Option.isNone
  if missing = 0 then s else s.revoke p 4 f.idx.toNat missing false e.release 3 (s.core p).bundle

/-- LRECV idx, [sx], cnt (R147). -/
def execLrecv (k : At) (f : XForm) (s : State) : Out :=
  .next (s.issue k 3 (f.word 0x11) (s.xBlocked k.core f [] [] (scratchRange f (256 * f.cnt.toNat) (s.core k.core).regs)) fun s =>
    s.delivery k.core 0x11 f 1 true fun s e a =>
      let mine := fun (b : RxBlock) => b.lcore == s.lcoreOf k.core && b.dtag == e.dtag
      let bs := (List.range f.cnt.toNat).map fun i =>
        (s.seat.rx.find? fun b => mine b && b.blk == i).map fun b => (b.die, b.block)
      let s := { s with seat := { s.seat with rx := s.seat.rx.filter fun b => !mine b } }
      s.receive k.core f e a bs)

/-- The engine entry that a release entry of kind 2 or 3 names, in the current trick. -/
def State.collEntry (s : State) (e : RelEntry) : Option CollEntry := s.entriesNow.find? fun c => c.dtag == e.dtag

/-- The rank of a release entry among those of the core's trick with its kind, tag and length. -/
def State.entryRank (s : State) (p : PCore) (idx : Nat) (e : RelEntry) : Nat :=
  ((s.releases p).take idx).countP fun x => x.kind == e.kind && x.dtag == e.dtag && x.cnt == e.cnt

/-- CPUT idx, [sx], cnt (R148): the blocks are handed to the engine entry; poisoned data makes it a sink of kind 3. -/
def execCput (k : At) (f : XForm) (s : State) : Out :=
  .next (s.issue k 3 (f.word 0x18) (s.xBlocked k.core f [] (scratchRange f (256 * f.cnt.toNat) (s.core k.core).regs) []) fun s =>
    s.delivery k.core 0x18 f 2 false fun s e a =>
      let p := k.core
      let bs := (List.range f.cnt.toNat).map fun i => (i, (s.core p).block (a + 256 * i))
      let s := s.pmu p 0x30 (fun _ => f.cnt.toNat)
      let s := match s.collEntry e with
        | none => s
        | some c =>
          let s := s.crossDie (towerOf p) c.engine f.cnt.toNat
          match descAt c.ins 0 (s.lcoreOf p) f.cnt.toNat (s.entryRank p f.idx.toNat e) with
          | none => s
          | some i => s.each bs fun s b => s.engineBlock c i.operand (i.first + b.1) b.2
      if bs.any (fun b => b.2.poison) then s.sink p 3 3 else s)

/-- CGET idx, [sx], cnt (R148): the result of an engine entry, as far as it has been formed. -/
def execCget (k : At) (f : XForm) (s : State) : Out :=
  .next (s.issue k 3 (f.word 0x19) (s.xBlocked k.core f [] [] (scratchRange f (256 * f.cnt.toNat) (s.core k.core).regs)) fun s =>
    s.delivery k.core 0x19 f 3 true fun s e a =>
      let bs := (List.range f.cnt.toNat).map fun i =>
        match s.collEntry e with
        | none => none
        | some c =>
          match descAt c.outs 4 (s.lcoreOf k.core) f.cnt.toNat (s.entryRank k.core f.idx.toNat e) with
          | none => none
          | some o => ((s.engine c.eng).result c.dtag (o.first + i)).map fun b => (c.engine, b)
      s.receive k.core f e a bs)

/-! ### In-bank operations (R149, R150, R202) -/

/-- The word places of one range of an in-bank operation: its fault, or its word indices. -/
inductive IbRange where
  | address (a : W64)
  | page (a : W64) (away : Bool)
  | words (ws : List Nat)
  deriving DecidableEq, Repr

/-- A range of an in-bank operation is checked and translated (R79, R80, R202 rule 1). -/
def State.ibRange (s : State) (p : PCore) (f : XForm) (a : W64) : IbRange :=
  let n := 32 * f.cnt.toNat
  if a.toNat % 32 != 0 || (!f.spc && decide (a.toNat + n > vaultSize)) then .address a
  else
    match s.badPage p (if f.spc then pagesOf a n else []) with
    | some b => .page b.1 b.2
    | none => .words ((s.places p f a 32).map (· / 32))

/-- Two words lie in the same slice, bank and row, at the same place within their bursts (R202 rule 2). -/
def sameColumn (w v : Nat) : Bool := w / 2 ^ 15 == v / 2 ^ 15 && w % 2 ^ 10 == v % 2 ^ 10

/-- Rules 2 and 3 of R202: the destination against the operand ranges. -/
def ibFits (dst : List Nat) (ops : List (List Nat)) : Bool :=
  (ops.all fun o => (dst.zip o).all fun x => sameColumn x.1 x.2) &&
    (ops.any (· == dst) || ops.all fun o => dst.all fun w => !o.contains w)

/-- An in-bank operation reads operand a; operand b; a scalar register. -/
def ibReadsA (op : Nat) : Bool := op != 1
def ibReadsB (op : Nat) : Bool := op == 2 || op == 3 || op == 4 || op == 6
def ibScalar (op : Nat) (f : XForm) : Option SReg :=
  if op = 1 ∨ op = 5 then some f.sz else if op = 4 then some ⟨(f.sz.val + 1) % 64, by omega⟩ else none

/-- The registers whose poison makes an in-bank operation a sink of kind 4. -/
def ibSources (op : Nat) (f : XForm) : List SReg :=
  [f.sx] ++ (if ibReadsA op then [f.sy] else []) ++ (if ibReadsB op then [f.sz] else []) ++ (ibScalar op f).toList

/-- An in-bank operation issues (R127, R149, R150, R202). IDX[15:12] selects the operation. -/
def State.ibIssue (s : State) (p : PCore) (f : XForm) : State :=
  let r := s.src p
  let op := fld f.idx 15 12
  match r.guard f.pg with
  | .off => s
  | .poisoned => (s.sink p 5 3).enqueue p (.taint [])
  | .on =>
    if (ibSources op f).any r.sTag then s.sink p 4 3
    else
      let s := s.noteAddr p 3 f.space (r.sGet f.sx)
      let dst := s.ibRange p f (r.sGet f.sx)
      let a := if ibReadsA op then s.ibRange p f (r.sGet f.sy) else .words []
      let b := if ibReadsB op then s.ibRange p f (r.sGet f.sz) else .words []
      match [dst, a, b].findSome? fun x => match x with | .address v => some v | _ => none with
      | some v => s.coreAddress p f.space v 3
      | none =>
        match [dst, a, b].findSome? fun x => match x with | .page v w => some (v, w) | _ => none with
        | some v => s.xlateEvent p v.1 v.2
        | none =>
          match dst, a, b with
          | .words d, .words x, .words y =>
            let ops := (if ibReadsA op then [x] else []) ++ (if ibReadsB op then [y] else [])
            if ibFits d ops then
              let scalar := match ibScalar op f with | some i => r.sGet i | none => 0
              s.enqueue p (.ibop op (floatFmt (fld f.idx 11 8)) (fld f.idx 3 0) d x y scalar f.spc)
            else s.coreAddress p f.space (r.sGet f.sx) 3
          | _, _, _ => s

/-- An in-bank instruction; an ACT whose table is not valid makes its bundle illegal, reason 4 (R216). -/
def State.ibInstr (s : State) (k : At) (f : XForm) (op : Nat) : State :=
  let f := { f with idx := setFld f.idx 15 12 op }
  s.issue k 3 (f.word 0x20) (s.xBlocked k.core f [] [] []) fun s => s.ibIssue k.core f

/-- IBOP.COPY (R149). -/
def execIbopCopy (k : At) (f : XForm) (s : State) : Out := .next (s.ibInstr k f 0)
/-- IBOP.FILL (R149). -/
def execIbopFill (k : At) (f : XForm) (s : State) : Out := .next (s.ibInstr k f 1)
/-- IBOP.ADD (R149). -/
def execIbopAdd (k : At) (f : XForm) (s : State) : Out := .next (s.ibInstr k f 2)
/-- IBOP.MUL (R149). -/
def execIbopMul (k : At) (f : XForm) (s : State) : Out := .next (s.ibInstr k f 3)
/-- IBOP.AXPY (R149). -/
def execIbopAxpy (k : At) (f : XForm) (s : State) : Out := .next (s.ibInstr k f 4)
/-- IBOP.SCAL (R149). -/
def execIbopScal (k : At) (f : XForm) (s : State) : Out := .next (s.ibInstr k f 5)
/-- IBOP.MAX (R149). -/
def execIbopMax (k : At) (f : XForm) (s : State) : Out := .next (s.ibInstr k f 6)
/-- IBOP.ACT (R149, R216). -/
def execIbopAct (k : At) (f : XForm) (s : State) : Out := .next (s.ibInstr k f 7)

/-! ### KV-attend (R151, R152, R220 to R224, R232) -/

/-- The descriptor's fields and the core's KV layout, as a KV-attend uses them. -/
structure Kv where
  seq : Nat
  kvh : Nat
  heads : Nat
  pos : Nat
  norm : Bool
  causal : Bool
  layer : Nat
  p0 : Nat
  t0 : Nat
  t1 : Nat
  scale : Nat
  qaddr : Nat
  oaddr : Nat
  bf16 : Bool
  slab : Nat
  lstride : Nat
  hstride : Nat
  tstride : Nat
  tphase : Nat
  deriving DecidableEq, Repr

/-- A descriptor read with the layout registers of its core (R151, R220). -/
def State.kv (s : State) (p : PCore) (d : List Byte) : Kv :=
  let cfg := s.reg (Reg.IB_KV_CFG p)
  let tok := s.reg (Reg.IB_KV_TOK p)
  let flags := descField d 5 1
  { seq := descField d 0 2, kvh := descField d 2 1, heads := descField d 3 1, pos := descField d 4 1,
    norm := flags % 2 == 1, causal := flags / 2 % 2 == 1, layer := descField d 6 2, p0 := descField d 8 4,
    t0 := descField d 12 4, t1 := descField d 16 4, scale := descField d 20 4, qaddr := descField d 24 4,
    oaddr := descField d 28 4, bf16 := bit cfg 0, slab := fld cfg 31 16, lstride := fld cfg 63 48,
    hstride := fld cfg 47 32, tstride := fld tok 31 16, tphase := fld tok 15 0 }

/-- Query rows. -/
def Kv.rows (d : Kv) : Nat := d.heads * d.pos

/-- Slots of a page (R220). -/
def Kv.tpp (d : Kv) : Nat := if d.bf16 then 128 else 192

/-- The token of a slot (R220). -/
def Kv.token (d : Kv) (s : Nat) : Nat := d.tphase + s * d.tstride

/-- The first slot of the layer and head's slab (R220). -/
def Kv.slabPage (d : Kv) : Nat := d.slab + d.layer * d.lstride + d.kvh * d.hstride

/-- The considered slots, as a first and an end (R223). -/
def Kv.slots (d : Kv) : Nat × Nat :=
  let lo := ceilDiv (d.t0 - d.tphase) d.tstride
  if d.t1 < d.tphase ∨ d.t1 < d.t0 then (0, 0) else (lo, max lo ((d.t1 - d.tphase) / d.tstride + 1))

/-- Row r sees a token (R223). -/
def Kv.sees (d : Kv) (r t : Nat) : Bool := decide (t ≤ d.t1) && (!d.causal || decide (t ≤ d.p0 + r / d.heads))

/-- Some row sees a token: the last one does, if any. -/
def Kv.seen (d : Kv) (t : Nat) : Bool := d.sees (d.rows - 1) t

/-- The slots of chunk q of slab page n that the KV-attend considers (R221, R223). -/
def Kv.chunk (d : Kv) (n q : Nat) : List Nat :=
  ((List.range (d.tpp / 64)).map fun i => n * d.tpp + 64 * i + (63 - q)).filter fun s =>
    decide (d.slots.1 ≤ s ∧ s < d.slots.2)

/-- The slab pages that hold considered slots. -/
def Kv.pages (d : Kv) : List Nat :=
  if d.slots.1 < d.slots.2 then run (d.slots.1 / d.tpp) ((d.slots.2 - 1) / d.tpp + 1 - d.slots.1 / d.tpp) else []

/-- The chunks of a slab page that are blocks: considered slots of which some row sees one (R224). -/
def Kv.blocksOf (d : Kv) (n : Nat) : List Nat :=
  (List.range 64).filter fun q => (d.chunk n q).any fun s => d.seen (d.token s)

/-- The sequence address of a slab page (R220, R194). -/
def Kv.pageAddr (d : Kv) (n : Nat) : W64 := BitVec.ofNat 64 (d.seq * 2 ^ 32 + (d.slabPage + n) * 2 ^ 16)

/-- A layout fails R232. -/
def Kv.bad (d : Kv) : Bool :=
  d.tstride == 0 || decide (d.tphase ≥ d.tstride) ||
    (d.pages.getLast?.map fun n => decide (d.slabPage + n > 65535)).getD false

/-- KVATT [sx] (R151, R152, R231, R232). A descriptor or layout that fails is reported by CORE_ADDRESS with the descriptor's own
address in scratch, space 0, as R232 says of its cases; R151 names no address for its own (DESIGN CHOICE, log entry 70). -/
def execKvatt (k : At) (f : XForm) (s : State) : Out :=
  .next (s.issue k 3 (f.word 0x28) (s.kvBlocked k.core f) fun s =>
    let p := k.core
    let r := s.src p
    let a := r.sGet f.sx
    let ok := a.toNat % 32 == 0 && decide (a.toNat + 64 ≤ scratchSize)
    let d := (s.core p).desc a.toNat
    let rows := 544 * descRows d
    let out := descField d 28 4
    match r.guard f.pg with
    | .off => s
    | .poisoned => (s.sink p 5 3).taintLater p (!r.sTag f.sx && ok && !descBad d) out rows
    | .on =>
      if r.sTag f.sx then s.sink p 4 3
      else if !ok then s.coreAddress p 0 a 3
      else if (s.core p).scratchTainted a.toNat 64 then
        let s := s.sink p 4 3
        if descBad d then s else s.setCore p ((s.core p).zeroTaint out rows)
      else if descBad d || (s.kv p d).bad then s.coreAddress p 0 a 3
      else
        let kv := s.kv p d
        let used := kv.pages.filter fun n => !(kv.blocksOf n).isEmpty
        let s := (s.translated p used.length).pmu p 0x2A (fun _ => 64 * kv.pages.length - (kv.pages.map fun n => (kv.blocksOf n).length).sum)
        match s.badPage p (used.map kv.pageAddr) with
        | some b =>
          let s := s.xlateEvent p b.1 b.2
          s.setCore p ((s.core p).zeroTaint out rows)
        | none => (s.noteAddr p 3 2 (kv.pageAddr 0)).enqueue p (.kvatt d))

/-! ### Translation queries (R153, R154) -/

/-- The word that XQRY returns (R153). -/
def State.query (s : State) (p : PCore) (a : W64) : W64 :=
  match s.pageEntry (s.seqTower p) a with
  | none => (Config.xqryPage p.val s.rubber a).setWidth 64 <<< 32
  | some e =>
    let mapped := bit e 31
    let own := mapped && fld e 19 14 == s.lcoreOf p % 64
    let page := if own then fld e 13 0 else (Config.xqryPage p.val s.rubber a).toNat
    BitVec.ofNat 64 (ofBool mapped * 2 ^ 63 + ofBool (bit e 30) * 2 ^ 62 + ofBool own * 2 ^ 61 + page * 2 ^ 32)

/-- XQRY sz, [sy] (R153): no event. -/
def execXqry (k : At) (f : XForm) (s : State) : Out :=
  .next (s.issue k 3 (f.word 0x30) (s.xBlocked k.core f [] [] []) fun s =>
    let p := k.core
    let r := s.src p
    match r.guard f.pg with
    | .off => s
    | .poisoned => ((s.sink p 5 3).holdEntry p none 1).mapRegs p fun q => q.sTaint f.sz
    | .on =>
      if r.sTag f.sy then (s.sink p 5 3).mapRegs p fun q => q.sPut f.sz 0 true
      else
        let v := s.query p (r.sGet f.sy)
        (((s.noteAddr p 3 2 (r.sGet f.sy)).translated p 1).holdEntry p none 12).mapRegs p fun q => q.sPut f.sz v false)

/-- XCHK [sy], cnt (R154). -/
def execXchk (k : At) (f : XForm) (s : State) : Out :=
  .next (s.issue k 3 (f.word 0x31) (s.xBlocked k.core f [] [] []) fun s =>
    let p := k.core
    let r := s.src p
    match r.guard f.pg with
    | .off => s
    | .poisoned => (s.sink p 5 3).holdEntry p none 1
    | .on =>
      if r.sTag f.sy then s.sink p 5 3
      else
        let pages := pagesOf (r.sGet f.sy) (32 * f.cnt.toNat)
        let s := ((s.noteAddr p 3 2 (r.sGet f.sy)).translated p pages.length).holdEntry p none (10 + 2 * pages.length)
        match s.badPage p pages with
        | some b => s.xlateEvent p b.1 b.2
        | none => s)

end Sys2Proof.Machine
end

