-- ==== Sys2Proof/Machine/VaultOps.lean ====
section
/-! DEFINITION. The vault channel as it serves a core (08 R173 to R193, 02 R26, R27): read blocks, return status, re-sends,
refresh and scrub slots, checker test mode, and writes to the sequence tables (R196). -/

namespace Sys2Proof.Machine

/-! ### Blocks on the channel (R176 to R178) -/

/-- The bits of a block and its CRC-32 with some of the 608 lines flipped: the received bits, and whether the check
passes (R176). -/
def crossed (a b : Stored) (flips : List Nat) : List Bool × Bool :=
  let sent := blockBits a b
  let crc := crc32 sent
  let got := sent.mapIdx fun i x => x ^^ flips.contains i
  let chk := (List.range 32).foldl (fun (c : BitVec 32) i => if flips.contains (576 + i) then c ^^^ (1 <<< i) else c) crc
  (got, crc32 got == chk)

/-- A stored word from 288 received bits. -/
def storedOfBits (bs : List Bool) : Stored :=
  Stored.ofBits (BitVec.ofNat 288 (bs.foldr (fun b n => ofBool b + 2 * n) 0))

/-- The words that the next block of a load brings: those still to come that share its block. -/
def nextBlock (ws : List Nat) (done : Nat) : List Nat :=
  match ws.drop done with
  | [] => []
  | w :: rest => w :: (rest.take 1).filter fun v => v / 2 == w / 2

/-- A block transfer of the load at the head of the queue, with its flipped lines. -/
def State.blockFor (s : State) (p : PCore) (w : Nat) (flips : List Nat) : List Bool × Bool :=
  crossed (s.vget p (w / 2 * 2)) (s.vget p (w / 2 * 2 + 1)) flips

/-- The load's words of a block delivered to scratch from received bits (R174, R86); `fail` delivers them as uncorrectable
(R178). -/
def State.deliverBlock (s : State) (p : PCore) (x : Xfer) (dst : Nat) (ws : List Nat) (bits : List Bool) (fail : Bool) :
    State :=
  let now := nextBlock ws x.done
  let s := (now.mapIdx fun i w => (i, w)).foldl (fun (s : State) (iw : Nat × Nat) =>
    let raw := storedOfBits ((bits.drop (288 * (iw.2 % 2))).take 288)
    let r := if fail then
        ((s.count (Reg.VLT_ERR_CNT p) 47 32 1).vaultEvent p 0x11 (BitVec.ofNat 64 iw.2) REQ_NONE x.bundle,
          (⟨raw, true⟩ : ReadWord))
      else s.decoded p iw.2 raw x.bundle
    let s := r.1.setCore p ((r.1.core p).writeWord (dst + 32 * (x.done + iw.1)) r.2.word.data r.2.poison)
    s.channelWord p iw.2 false) s
  let s := s.blockMoved p
  let done := x.done + now.length
  let same := match ws[done]?, now.head? with
    | some v, some w => v / 8 == w / 8
    | _, _ => false
  if done ≥ ws.length then (s.popXfer p).advanceXq p 17
  else s.setHead p { x with done, fails := if same then x.fails else 0 }

/-- The words of the load's present burst delivered as uncorrectable (R178), the first block with the bits last received. -/
def State.failBurst (s : State) (p : PCore) (x : Xfer) (dst : Nat) (ws : List Nat) (flips : List Nat) : Nat → State
  | 0 => s
  | n + 1 =>
    match ws[x.done]? with
    | none => s
    | some w =>
      let s := s.deliverBlock p x dst ws (s.blockFor p w flips).1 true
      match ws[x.done + (nextBlock ws x.done).length]? with
      | some v =>
        if v / 8 = w / 8 then s.failBurst p { x with done := x.done + (nextBlock ws x.done).length } dst ws [] n else s
      | none => s

/-- The first word of the burst that a load is in the midst of: a failed block is answered by a read of the whole burst
(R177). -/
def burstStart (ws : List Nat) (done : Nat) : Nat :=
  let b := ws.getD done 0 / 8
  done - ((ws.take done).reverse.takeWhile fun w => w / 8 == b).length

/-- The state with the head's burst waiting, or not, for its re-send; the block that failed last, and its flipped bits. -/
def State.await (s : State) (p : PCore) (on : Bool) (block : Nat) (flips : List Nat) : State :=
  let v := (s.core p).vault
  s.setVault p { v with awaiting := on, flipBlock := block, flips }

/-- A block that failed before has come again: the bits that differ are attributed (R26). -/
def State.compareBlock (s : State) (p : PCore) (w : Nat) (flips : List Nat) : State :=
  let v := (s.core p).vault
  if v.flips.isEmpty || v.flipBlock != w / 2 then s
  else (s.setVault p { v with flips := [] }).attribute p (differing v.flips flips)

/-- A block of the load at the head of the queue arrives with some lines flipped (R173 to R177): delivered where its CRC is
good; else its burst waits for its re-send, or is lost with the fourth failure (R178). -/
def State.loadBlock (s : State) (p : PCore) (x : Xfer) (dst : Nat) (ws : List Nat) (fl : List Nat) : State :=
  match ws[x.done]? with
  | none => s
  | some w =>
    let first := burstStart ws x.done
    let s := if first = x.done then s.placeBurst p 1 false [w] else s
    let b := s.blockFor p w fl
    let s := s.compareBlock p w fl
    if b.2 then s.deliverBlock p x dst ws b.1 false
    else if x.fails + 1 ≥ 4 then
      ((s.await p false 0 []).exhausted p 1 (w / 8 * 8) true x.bundle).failBurst p { x with done := first, fails := 4 } dst ws fl 8
    else ((s.blockMoved p).setHead p { x with done := first, fails := x.fails + 1 }).await p true (w / 2) fl

/-- A failed transfer of a burst that is no load's, to be found by the burst that the controller reads next (R177). -/
def State.spoil (s : State) (p : PCore) (flips : List Nat) : State :=
  let v := (s.core p).vault
  s.setVault p { v with noise := v.noise ++ [flips] }

/-- VAULT_READ_BLOCK: a block of the load at the head of the queue arrives with some lines flipped (R173 to R177). With no load
at the head, lines flipped spoil the block of the burst that the controller reads next for a narrow store, the host, a Crix
record or the scrubber (log entry 29). -/
def execVaultReadBlock (c : PCore) (flips : List (Fin 608)) (s : State) : Out :=
  let fl := flips.map (·.val)
  .next (match (s.core c).xq with
    | [] => if fl.isEmpty then s else s.spoil c fl
    | x :: _ =>
      match x.op with
      | .load dst ws => if (s.core c).vault.awaiting then s else s.loadBlock c x dst ws fl
      | _ => if fl.isEmpty then s else s.spoil c fl)

/-- A write burst changed in the list of those whose status may be reported. -/
def State.setBurst (s : State) (p : PCore) (n : Nat) (b : WriteBurst) : State :=
  let v := (s.core p).vault
  s.setVault p { v with bursts := v.bursts.set n b }

/-- The words of a burst put into the vault. -/
def State.putWords (s : State) (p : PCore) (ws : List Nat) (xs : List Stored) : State :=
  s.each (ws.zip xs) fun s y => s.vput p y.1 y.2

/-- A write burst has failed an attempt: it is not committed; the fourth attempt leaves the words as they were (R177,
R178). -/
def State.burstFailed (s : State) (p : PCore) (n : Nat) (flips : List Nat) : State :=
  match (s.core p).vault.bursts[n]? with
  | none => s
  | some b =>
    let s := s.putWords p b.words b.old
    if b.fails + 1 ≥ 4 then
      (s.setBurst p n { b with fails := 4, pending := false, flips := [] }).exhausted p b.kind (b.words.headD 0 / 8 * 8) b.ofHand
        b.bundle
    else s.setBurst p n { b with fails := b.fails + 1, pending := true, flips }

/-- The commands of an in-bank operation or a KV-attend whose next one failed its fourth attempt go on behind it: see
`execIbrun`, `execKvset`. -/
def State.commandAgain (s : State) (p : PCore) (x : Xfer) : State :=
  (s.setHead p { x with fails := x.fails + 1 }).await p true 0 []

/-! ### Slots (R183 to R192, R27) -/

/-- The assigned temperature of a slice, in 1/16 C (R368). -/
def State.sliceTemp (s : State) (p : PCore) (k : Nat) : Int :=
  signed 16 (s.rd (Reg.THM_SLICE p (k / 4)) (16 * (k % 4) + 15) (16 * (k % 4)))

/-- The hottest slice. -/
def State.hottest (s : State) (p : PCore) : Nat :=
  (List.range 8).foldl (fun b k => if s.sliceTemp p k > s.sliceTemp p b then k else b) 0

/-- MEM_REFRESH_RATE, once until the clock is 2.4 GHz again (R186). -/
def State.refreshRate (s : State) (p : PCore) : State :=
  let v := (s.core p).vault
  if s.clock = 0 then s.setVault p { v with rateRaised := false }
  else if s.sliceTemp p (s.hottest p) > 1520 && !v.rateRaised then
    (s.setVault p { v with rateRaised := true }).vaultEvent p 0x16 (BitVec.ofNat 64 (s.hottest p)) REQ_NONE 0
  else s

/-- The choice between refreshing and handing, as a slot begins (R185, R186). -/
def State.slotHeat (s : State) (p : PCore) : State :=
  let v := (s.core p).vault
  let ts := (List.range 8).map (s.sliceTemp p)
  let hot := if ts.any (fun t => decide (t ≥ 1360)) then true else if ts.all (fun t => decide (t < 1328)) then false else v.hot
  ((s.setVault p { v with hot }).wr (Reg.VLT_SCRUB_STAT p) 23 23 (ofBool (hot || s.clock != 0))).refreshRate p

/-- The slot that now begins is handed to the scrubber. -/
def State.handedNow (s : State) (p : PCore) : Bool :=
  (s.core p).vault.handed && !bit (s.reg (Reg.VLT_SCRUB_STAT p)) 23

/-- The lines whose switch is due are steered to their spares in the last cycles of the first refresh slot after the rubber
boundary (R27, R29): from then on the spare carries the line. -/
def State.switchLines (s : State) (p : PCore) : State :=
  let due := (s.core p).vault.due
  if due = [] then s
  else
    let s := s.each due fun s l =>
      let g := l / 20
      let s := s.wr (Reg.VLT_VCH_SPARE p (g / 8)) (8 * (g % 8) + 4) (8 * (g % 8)) (l % 20)
      let s := (s.wr (Reg.VLT_VCH_STAT p) (16 + g) (16 + g) 0).wr (Reg.VLT_VCH_STAT p) g g 1
      s.append [.line p g (l % 20)]
    let v := (s.core p).vault
    s.setVault p { v with due := [], failed := v.failed.filter fun l => !due.contains l,
                          lineErrs := v.lineErrs.filter fun e => !due.contains e.1 }

/-- REFRESH_SLOT: one row of one bank in every slice is refreshed (R185); the next slot is handed to the scrubber unless
every slot refreshes. A slot that is the scrubber's, or a vault in self-refresh, takes no refresh slot. -/
def execRefreshSlot (c : PCore) (s : State) : Out :=
  .next (if (s.core c).vault.selfRefresh then s
    else
      let s1 := (s.slotHeat c).closeBanks c
      if s1.handedNow c then s
      else
        let v := (s1.core c).vault
        let on := bit (s1.reg (Reg.VLT_SCRUB_STAT c)) 23
        ((s1.setVault c { v with refreshPtr := v.refreshPtr + 1, handed := !on }).pmu c 0x24 (fun _ => 1)).switchLines c)

/-- One word of a scrub (R188, R189): a corrected word is rewritten, an uncorrectable one, or one of a burst that could not be
read (R178), is stored poisoned. The decoder's finding and the word to store. -/
def State.scrubWord (s : State) (p : PCore) (lost : Bool) (w : Nat) : State × Decoded × Stored :=
  let s := s.channelWord p w false
  let x := s.vget p w
  let d := if lost then (Decoded.uncorrectable, x) else decodeWord x
  match d.1 with
  | .clean => (s, d.1, x)
  | .corrected q => (s.correction p w (symbolName q) true 0, d.1, d.2)
  | .uncorrectable => (s.badWord p w true 0, d.1, encodeWord x.data (x.md ||| 1))

/-- The bursts of a segment read by the scrubber, in order: each word with what the decoder found and what is to be stored. -/
def State.scrubRead (s : State) (p : PCore) (seg : Nat) : State × List (Nat × Decoded × Stored) :=
  (burstsOf (segmentWords seg)).foldl (fun (a : State × List (Nat × Decoded × Stored)) b =>
    let r := a.1.readBurst p true b false 0
    b.foldl (fun (a : State × List (Nat × Decoded × Stored)) w =>
      let x := a.1.scrubWord p r.2 w
      (x.1, a.2 ++ [(w, x.2)])) (r.1, a.2)) (s, [])

/-- A segment is read, decoded, and its corrected words rewritten (R188, R189). -/
def State.scrubSegment (s : State) (p : PCore) (seg : Nat) : State :=
  let r := s.scrubRead p seg
  let out := r.2.filter fun x => x.2.1 != .clean
  if out.isEmpty then r.1
  else r.1.storing p (out.map (·.1)) true false 0 fun s => s.each out fun s x =>
    ((s.vput p x.1 x.2.2).channelWord p x.1 true).count (Reg.VLT_ERR_CNT p) 15 0 1

/-- A pending segment is copied to its spare segment, which serves it from then on (R191): spare-segment writes, whose status
may be reported as that of other writes. -/
def State.remapCopy (s : State) (p : PCore) (e : Nat) : State :=
  let r := s.scrubRead p (remapSeg (s.reg (Reg.VLT_REMAP p e)))
  let held := ((r.1.core p).vault).spare
  let s := r.1.each r.2 fun s x =>
    let v := (s.core p).vault
    (s.setVault p { v with spare := putStored v.spare (spareIndex x.1 e) x.2.2 }).channelWord p x.1 true
  let s := (s.wr (Reg.VLT_REMAP p e) 62 62 0).wr (Reg.VLT_REMAP p e) 63 63 1
  let bs := burstsOf (r.2.map (·.1))
  let s := s.each bs fun s b => (s.placeBurst p 5 true b).blocksMoved p (blocksIn b)
  s.keepBursts p [] (bs.map fun b =>
    { words := b, old := b.map fun w => storedAt held (spareIndex w e), new := s.heldWords p b, fails := 0, pending := false,
      kind := 5, ofHand := false, bundle := 0, flips := [] })

/-- The walker goes on to its next segment; a finished lap is recorded (R187). -/
def State.advanceWalker (s : State) (p : PCore) : State :=
  let pos := s.rd (Reg.VLT_SCRUB_STAT p) 18 0
  let s := s.wr (Reg.VLT_SCRUB_STAT p) 18 0 (pos + 1)
  if pos = 524287 then
    let v := (s.core p).vault
    let s := s.wr (Reg.VLT_SCRUB_STAT p) 63 32 (s.ms - v.lapStart)
    (s.wr (Reg.VLT_SCRUB_STAT p) 31 24 (s.rd (Reg.VLT_SCRUB_STAT p) 31 24 + 1)).setVault p { v with lapStart := s.ms }
  else s

/-- The scrub work of a slot or marked window: a pending copy, else the walker's segment (R187, R188, R191). -/
def State.scrubWork (s : State) (p : PCore) (use : Bool) : State :=
  match (List.range 8).find? fun e => bit (s.reg (Reg.VLT_REMAP p e)) 62 with
  | some e => (s.pmu p 0x25 (fun _ => 1)).remapCopy p e
  | none =>
    if use then
      ((s.pmu p 0x25 (fun _ => 1)).scrubSegment p (s.rd (Reg.VLT_SCRUB_STAT p) 18 0)).advanceWalker p
    else s

/-- The deal marks a window of a kind that begins at the present trick cycle for the vault of a core: 1 for the host (R15), 2
idle (R187). -/
def State.marked (s : State) (p : PCore) (kind : Nat) : Bool :=
  s.running && s.physOf (s.lcoreOf p) == some p &&
    (match s.seat.deal with
     | some d => (d.windowsOf s.variant (s.lcoreOf p)).any fun w =>
         w.kind == kind && w.trick == s.seat.trick.toNat && w.cycle == s.seat.cycle.toNat
     | none => false)

/-- SCRUB_SLOT: a slot handed to the scrubber, or a window that the deal marks idle, begins (R185 to R191). A slot that is
not the scrubber's has no scrub slot. -/
def execScrubSlot (c : PCore) (window : Bool) (s : State) : Out :=
  .next (
    let mode := s.rd (Reg.VLT_CFG c) 1 0
    if (s.core c).vault.selfRefresh then s
    else if window then (if s.marked c 2 then (s.closeBanks c).scrubWork c (mode == 1) else s)
    else
      let s1 := (s.slotHeat c).closeBanks c
      if s1.handedNow c then
        let v := (s1.core c).vault
        let walk := mode == 2 && decide (v.walked ≥ s1.rd (Reg.VLT_CFG c) 39 32)
        let walked := if walk then 0 else if mode = 2 then v.walked + 1 else v.walked
        (s1.setVault c { v with handed := false, walked }).scrubWork c (mode == 1 || walk)
      else s)

/-! ### Checker test mode (R193) -/

/-- Test mode may be enabled: the core is STOPPED, FAULTED, SPARE or RETIRED. -/
def State.testable (s : State) (p : PCore) : Bool := !([CS_OFF, CS_RUNNING, CS_HELD].contains (s.coreState p))

/-- A START, REPLAY or STEP has been accepted and the seat has not begun to run on it. A replay that a notice names is no
REPLAY. -/
def State.startAccepted (s : State) : Bool :=
  s.seat.startAt.isSome || s.seat.step.isSome || (match s.seat.replayAt with | some (_, some _) => true | _ => false)

/-- A raw write: the 288 bits of the registers are stored exactly. -/
def State.rawStore (s : State) (p : PCore) (w : Nat) : State :=
  let d := (List.range 4).foldr (fun k n => (s.reg (Reg.VLT_TEST_DATA p k)).toNat + 2 ^ 64 * n) 0
  s.vput p w (Stored.ofBits (BitVec.ofNat 288 (d + s.rd (Reg.VLT_TEST_META p) 31 0 * 2 ^ 256)))

/-- A raw read: the registers take the stored bits, RESULT and SYMBOL the decoder's finding. -/
def State.rawLoad (s : State) (p : PCore) (w : Nat) : State :=
  let x := s.vget p w
  let s := s.each (List.range 4) fun s k => s.setReg (Reg.VLT_TEST_DATA p k) (x.bits.extractLsb' (64 * k) 64)
  let s := s.wr (Reg.VLT_TEST_META p) 31 0 (x.bits.extractLsb' 256 32).toNat
  let r : Nat × Nat := match (decodeWord x).1 with
    | .clean => (0, 0)
    | .corrected q => (1, symbolName q)
    | .uncorrectable => (2, 0)
  (s.wr (Reg.VLT_TEST_CTL p) 15 14 r.1).wr (Reg.VLT_TEST_CTL p) 13 8 r.2

/-- A write of VLT_TEST_CTL (R193): WORD, ENABLE, then CMD. -/
def State.testCtl (s : State) (p : PCore) (enable : Bool) (word cmd : Nat) : State :=
  let a := Reg.VLT_TEST_CTL p
  let s := s.wr a 56 32 word
  if !s.testable p then s.access 0 a
  else
    let barred := enable && s.startAccepted
    let s := if barred then s.access 0 a else s.wr a 2 2 (ofBool enable)
    if !bit (s.reg a) 2 then s
    else if cmd = 1 then s.rawStore p word
    else if cmd = 2 then s.rawLoad p word
    else s

/-- RAW_WRITE: VLT_TEST_CTL is written with CMD = 1. -/
def execRawWrite (c : PCore) (enable : Bool) (word : BitVec 25) (s : State) : Out := .next (s.testCtl c enable word.toNat 1)

/-- RAW_READ: VLT_TEST_CTL is written with CMD = 2. -/
def execRawRead (c : PCore) (enable : Bool) (word : BitVec 25) (s : State) : Out := .next (s.testCtl c enable word.toNat 2)

/-! ### Sequence tables (R196, R16) -/

/-- A command accepted in a cycle has taken effect: a rubber, replays included, has begun at least 2,400 cycles after it
(R16). -/
def State.boundaryPassed (s : State) (at_ : Nat) : Bool := decide (at_ + 2400 ≤ s.seat.began)

/-- The variant of a rubber to come: the one named by VARIANT from its rubber on, else the one in force (R261). -/
def State.variantIn (s : State) (u : Nat) : Nat :=
  match s.seat.variantAt with
  | some (r, v, _) => if r.toNat ≤ u then v else s.variant
  | none => s.variant

/-- The cycles of a rubber in a variant of the loaded deal. -/
def State.lengthIn (s : State) (v : Nat) : Nat :=
  match s.seat.deal with
  | some d => ((d.tricksOf v).map (·.len)).sum
  | none => 0

/-- Cycles until rubber u of the running deal begins, as far as they count for R16: what is left of the present rubber and
the rubbers between, each in its variant (a rubber has 64 cycles or more, R242, so 40 are enough), or until the resume tick
of a clock step that comes before it. -/
def State.cyclesTo (s : State) (u : Nat) : Nat :=
  if u ≤ s.rubber then 0
  else
    let left := s.lengthIn s.variant - s.seat.rubberCycle
    let sum := ((List.range (min 40 (u - s.rubber - 1))).map fun i => s.lengthIn (s.variantIn (s.rubber + 1 + i))).sum
    let step := match s.seat.step with
      | some p => if p.rubber.toNat ≤ u then (p.resume.toNat - s.now) * 96 / s.rootCycles else 0
      | none => 0
    max (left + sum) step

/-- The value that a host read of a directory or page entry returns: as written, in effect or not (R196). -/
def State.seqRead (s : State) (a : Nat) : W64 :=
  match (s.seat.seqHeld.filter fun w => w.addr == a).getLast? with
  | some w => w.value
  | none => s.reg a

/-- A host write to a directory or page entry: at once, or held for the rubber boundary of R16 while a deal runs (R196). -/
def State.seqWrite (s : State) (a : Nat) (v : W64) : State :=
  match regRow a with
  | none => s
  | some row =>
    let v := row.write (s.seqRead a) v
    if s.dealRuns then
      { s with seat := { s.seat with seqHeld := s.seat.seqHeld ++ [{ addr := a, value := v, at_ := s.seat.cycles }] } }
    else s.setReg a v

/-- Held writes that pass a test take effect together, in order. -/
def State.applyHeld (s : State) (due : SeqWrite → Bool) : State :=
  let t := s.each (s.seat.seqHeld.filter due) fun s w => s.setReg w.addr w.value
  { t with seat := { t.seat with seqHeld := s.seat.seqHeld.filter fun w => !due w } }

/-- At a rubber boundary: the writes that R16 lets take effect there (R196, R238). -/
def State.applySeq (s : State) : State := s.applyHeld fun w => s.boundaryPassed w.at_

/-- SEQ_ENTRY_WRITE: a host write to TBL_SEQ_DIR or TBL_SEQ_PAGE. -/
def execSeqEntryWrite (dir : Bool) (t : Tower) (i : BitVec 16) (v : W64) (s : State) : Out :=
  .next (s.seqWrite (if dir then Reg.TBL_SEQ_DIR t (i.toNat % 4096) else Reg.TBL_SEQ_PAGE t i.toNat) v)

end Sys2Proof.Machine
end

