-- ==== Sys2Proof/Machine/Access.lean ====
section
/-! DEFINITION. What the host ports do for the rest of the module (14): completions (R324), Crix frames that leave (R329,
R330), and vault accesses of the host (R15, R319, R326, R332, R333, R335). -/

namespace Sys2Proof.Machine

/-! ### Completions (R316, R324, R337) -/

/-- Room in the completion ring (HST_CPLQ_PTR). -/
def State.cplRoom (s : State) : Nat :=
  let used := (s.rd Reg.HST_CPLQ_PTR 63 32 + 2 ^ 32 - s.rd Reg.HST_CPLQ_PTR 31 0) % 2 ^ 32
  2 ^ s.rd Reg.HST_CPLQ 4 0 - used

/-- The 64 bytes of a ring entry (R324). -/
def Completion.bytes (c : Completion) : List Byte :=
  leBytes 1 c.cmd.opcode.toNat ++ leBytes 1 c.cmd.gen.toNat ++ leBytes 2 c.cmd.id.toNat ++ leBytes 1 c.status ++
    leBytes 1 c.detail ++ leBytes 2 c.retry ++ leBytes 8 c.tick.toNat ++ leBytes 4 c.cmd.cons.toNat ++
    List.replicate 44 0

/-- Records written to the ring in order, while it is enabled, the link is up and it has room; those left wait in the hub
(R316, R324). -/
def State.post (s : State) : List Completion → State × List Completion
  | [] => (s, [])
  | c :: cs =>
    if !s.tlUp || !bit (s.reg Reg.HST_CPLQ) 6 || s.cplRoom == 0 then (s, c :: cs)
    else
      let s := s.each c.lines fun s l => s.send (.hostLine l.1 l.2)
      let n := s.rd Reg.HST_CPLQ_PTR 63 32
      let a := s.rd Reg.HST_CPLQ 63 12 * 4096 + 64 * (n % 2 ^ s.rd Reg.HST_CPLQ 4 0)
      let s := (s.send (.hostLine a c.bytes)).wr Reg.HST_CPLQ_PTR 63 32 (n + 1)
      let s := if bit (s.reg Reg.HST_CPLQ) 7 then s.send (.irq (s.rd Reg.HST_CPLQ 11 8)) else s
      s.post cs

/-- Completions that wait are written as far as they can be. -/
def State.flushCompletions (s : State) : State :=
  let r := s.post s.host.held
  { r.1 with host := { r.1.host with held := r.2 } }

/-- A completion record is formed, after the lines of a reply (R324, R325, R416). -/
def State.respondWith (s : State) (c : CmdRef) (status detail retry : Nat) (lines : List (Nat × List Byte)) : State :=
  let s := if status = 1 then s.count Reg.HST_CMD_STAT 47 32 1 else if status = 2 then s.count Reg.HST_CMD_STAT 31 16 1 else s
  let x : Completion := { cmd := c, status, detail, retry, tick := s.reg Reg.TBL_TIME, lines }
  { s with host := { s.host with held := s.host.held ++ [x] } }.flushCompletions

/-- A command that was not accepted is answered (R322). -/
def State.respond (s : State) (c : CmdRef) (status detail retry : Nat) : State := s.respondWith c status detail retry []

/-- An accepted command is open no longer. -/
def State.close (s : State) (c : CmdRef) : State :=
  { s with host := { s.host with opened := s.host.opened.filter (fun y => y != c) } }

/-- An accepted command completes (R324, R325). -/
def State.complete (s : State) (c : CmdRef) (status detail retry : Nat) : State := (s.close c).respond c status detail retry

/-- HST_STATE_REJECT and a completion with STATE (R322, R337). -/
def State.reject (s : State) (c : CmdRef) : State :=
  let arg := c.id.toNat * 2 ^ 32 + c.gen.toNat * 2 ^ 24 + s.tblState * 2 ^ 8 + c.opcode.toNat
  (s.eventN 0x50 arg 0).respond c 1 s.tblState 0

/-! ### Crix frames out (R329, R330) -/

/-- The port is up. -/
def State.crixUp (s : State) : Bool := bit (s.reg Reg.HST_CX_STAT) 0

/-- A Crix frame leaves, returning the credits freed since the frame before it; CRED0 has 8 bits, CRED1 16. -/
def State.crixSend (s : State) (type : Nat) (seq : BitVec 16) (f : CxFrame) : State :=
  let x := s.crix
  let c0 := min 255 x.freed[0]
  let c1 := min 65535 x.freed[1]
  let s := s.send (.crixFrame (crixBytes type (f.ch % 2 == 1) x.nak f.sor seq x.expect c0 c1 f.payload))
  { s with crix := { s.crix with owes := false, freed := (x.freed.set 0 (x.freed[0] - c0)).set 1 (x.freed[1] - c1) } }

/-- Frames that wait leave in order, each while a credit of its channel is held and the replay buffer has room. -/
def State.crixPump (s : State) : Nat → State
  | 0 => s
  | n + 1 =>
    match s.crix.out with
    | [] => s
    | f :: rest =>
      let ch : Fin 2 := ⟨f.ch % 2, Nat.mod_lt _ (by decide)⟩
      let x := s.crix
      if !s.crixUp || x.credits[ch.val] == 0 || decide (x.replay.length ≥ 512) then s
      else
        let s := { s with crix := { x with out := rest, credits := x.credits.set ch.val (x.credits[ch.val] - 1),
                                           replay := x.replay ++ [(x.nextSeq, f, 1)], nextSeq := x.nextSeq + 1 } }
        ((s.gpmu 0x87 (fun _ => 1)).crixSend 1 x.nextSeq f).crixPump n

/-- An IDLE frame leaves where there is something to tell: an acknowledgement, a NAK, or credits (R329, R330). -/
def State.crixIdle (s : State) : State :=
  if s.crixUp && (s.crix.owes || s.crix.freed[0] != 0 || s.crix.freed[1] != 0) then
    s.crixSend 0 0 { ch := 0, sor := false, payload := [] }
  else s

/-- Every frame that can leave does; what none of them has told goes in an IDLE frame. -/
def State.crixFlush (s : State) : State := (s.crixPump s.crix.out.length).crixIdle

/-- The 256-byte payloads of a record's bytes, the last padded with zeros (R331). -/
def payloads : Nat → List Byte → List (List Byte)
  | 0, _ => []
  | n + 1, bs => if bs.isEmpty then [] else ((bs.take 256) ++ List.replicate (256 - (bs.take 256).length) 0) :: payloads n (bs.drop 256)

/-- A poison bitmap: one bit per word, padded to a multiple of 32 bytes (R331). -/
def poisonMap (ps : List Bool) : List Byte :=
  let n := roundUp (ceilDiv ps.length 8) 32
  leBytes n (ps.foldr (fun b k => ofBool b + 2 * k) 0)

/-- A record sent on channel 0 (R330, R331): header, data words, bitmap. -/
def State.crixRecord (s : State) (rtype flags tag lcore status addr len : Nat) (deal : W64) (words : List (BitVec 256 × Bool))
    (map : Bool) : State :=
  let head := leBytes 1 rtype ++ leBytes 1 flags ++ leBytes 2 tag ++ leBytes 1 lcore ++ leBytes 1 status ++ leBytes 2 0 ++
    leBytes 8 addr ++ leBytes 4 len ++ leBytes 4 0 ++ leBytes 8 deal.toNat
  let body := head ++ words.flatMap (fun w => leBytes 32 w.1.toNat) ++ (if map then poisonMap (words.map (·.2)) else [])
  let fs := (payloads (body.length / 256 + 1) body).mapIdx fun i b => { ch := 0, sor := i == 0, payload := b : CxFrame }
  { s with crix := { s.crix with out := s.crix.out ++ fs } }.crixFlush

/-! ### Vault accesses of the host -/

/-- A word read for the host (R174, R319): its data and poison indication; `lost` tells that its burst could not be read
(R178). -/
def State.hostRead (s : State) (p : PCore) (lost : Bool) (w : Nat) : State × BitVec 256 × Bool :=
  let r := (s.channelWord p w false).wordOf p lost w 0
  (r.1, r.2.word.data, r.2.poison)

/-- Words read in order, burst by burst. -/
def State.hostReads (s : State) (p : PCore) (ws : List Nat) : State × List (BitVec 256 × Bool) :=
  (burstsOf ws).foldl (fun (a : State × List (BitVec 256 × Bool)) b =>
    let r := a.1.readBurst p true b false 0
    b.foldl (fun (a : State × List (BitVec 256 × Bool)) w =>
      let x := a.1.hostRead p r.2 w
      (x.1, a.2 ++ [x.2])) (r.1, a.2)) (s, [])

/-- A word written for the host: GEN 0, IBW 0 (R319, R326). -/
def State.hostWrite (s : State) (p : PCore) (w : Nat) (d : BitVec 256) (poison : Bool) : State :=
  (s.writeWord p w d 0 false poison).channelWord p w true

/-- Words written for the host, each with its poison; the status of their bursts may be reported (R177, R178). -/
def State.hostWrites (s : State) (p : PCore) (xs : List (Nat × BitVec 256 × Bool)) : State :=
  s.storing p (xs.map (·.1)) true false 0 fun s => s.each xs fun s x => s.hostWrite p x.1 x.2.1 x.2.2

/-- Bytes of a Crix record in words. -/
def CxRecord.nwords (r : CxRecord) : Nat := r.len / 32

/-- The record has been performed: its reply, and the credits of its frames (R330 to R332). Frames of a record: R331. -/
def CxRecord.frames (r : CxRecord) : Nat :=
  let data := if r.rtype = 1 ∧ r.len ≤ 65536 then r.len + (if r.flags / 2 % 2 = 1 then roundUp (ceilDiv r.len 256) 32 else 0) else 0
  ceilDiv (32 + data) 256

/-- Credits of a channel freed. -/
def State.crixFree (s : State) (ch : Fin 2) (n : Nat) : State :=
  let x := s.crix
  { s with crix := { x with freed := x.freed.set ch.val (x.freed[ch.val] + n) } }

/-- A record is answered: a WRITE_ACK where one is wanted or the record is refused, READ_DATA for a READ. A refused READ
returns zeros, with their bitmap; LEN 32 where its own is no length of a record (log entry 75). -/
def State.crixAnswer (s : State) (r : CxRecord) (status : Nat) (words : List (BitVec 256 × Bool)) : State :=
  let s := s.crixFree r.ch r.frames
  if r.rtype ≠ 2 then
    if status ≠ 0 || r.flags % 2 = 1 then s.crixRecord 0x82 0 r.tag r.lcore status r.addr r.len 0 [] false else s.crixFlush
  else if status = 0 then s.crixRecord 0x81 2 r.tag r.lcore status r.addr r.len 0 words true
  else
    let n := if r.len % 32 = 0 ∧ 32 ≤ r.len ∧ r.len ≤ 65536 then r.len else 32
    s.crixRecord 0x81 2 r.tag r.lcore status r.addr n 0 (List.replicate (n / 32) (0, false)) true

/-- The rest of a record moved, up to a number of words (R332, R333): the state, what is left of it, the words moved. -/
def State.moveRecord (s : State) (p : PCore) (r : CxRecord) (done budget : Nat) : State × Option Access × Nat :=
  let n := min budget (r.nwords - done)
  let ws := (List.range n).map fun i => (done + i, r.addr / 32 + done + i)
  let out : State × CxRecord :=
    if r.rtype = 1 then
      (s.hostWrites p (ws.map fun w => (w.2, r.words.getD w.1 (0, false))), r)
    else
      let x := s.hostReads p (ws.map (·.2))
      (x.1, { r with words := r.words ++ x.2 })
  if done + n ≥ r.nwords then (out.1.crixAnswer out.2 0 out.2.words, none, n)
  else (out.1, some (.record out.2 (done + n)), n)

/-- The egress half of a rubber (R335): its word indices. -/
def State.egressWords (s : State) (u : Nat) : List Nat :=
  let n := s.rd Reg.HST_CX_EGR 36 30
  run ((s.rd Reg.HST_CX_EGR 29 0 + u % 2 * n * 32) / 32) n

/-- An access performed as far as a number of words allows: the state, what is left, the words moved. -/
def State.perform (s : State) (p : PCore) (a : Access) (budget : Nat) : State × Option Access × Nat :=
  match a with
  | .read off n =>
    let va := off % 2 ^ 30
    let ws := run (va / 32) (max 1 (n / 32))
    if budget < ws.length then (s, some a, 0)
    else
      let r := s.hostReads p ws
      let bytes := (r.2.flatMap fun w => leBytes 32 w.1.toNat)
      (r.1.send (.readData off ((bytes.drop (va % 32)).take n) (r.2.map (·.2))), none, ws.length)
  | .write off d poison =>
    let va := off % 2 ^ 30
    if d.length < 32 then
      if budget = 0 then (s, some a, 0)
      else
        let new : Nat → Option Byte := fun i => if va % 32 ≤ i then d[i - va % 32]? else none
        (s.storing p [va / 32] true false 0 fun s =>
          ((s.channelWord p (va / 32) false).mergeWord p (va / 32) new 0 poison false 0).channelWord p (va / 32) true, none, 1)
    else
      let n := d.length / 32
      if budget < n then (s, some a, 0)
      else
        (s.hostWrites p ((List.range n).map fun i =>
          (va / 32 + i, BitVec.ofNat 256 (leNat ((d.drop (32 * i)).take 32)), poison)), none, n)
  | .stage w d at_ cmd =>
    if budget = 0 || (s.dealRuns && !(match at_ with | some n => s.boundaryPassed n | none => true)) then (s, some a, 0)
    else ((s.hostWrites p [(w, d, false)]).complete cmd 0 0 0, none, 1)
  | .record r done => if budget = 0 then (s, some a, 0) else s.moveRecord p r done budget
  | .egress u =>
    let ws := s.egressWords u
    if budget < ws.length then (s, some a, 0)
    else
      let r := s.hostReads p ws
      let s := r.1
      ({ s with crix := { s.crix with egress := s.crix.egress.map fun e =>
           if e.rubber = u then { e with words := some r.2 } else e } }, none, ws.length)

/-- The word that a STAGE writes. -/
def Access.staged : Access → Option Nat
  | .stage w _ _ _ => some w
  | _ => none

/-- The accesses of a core's logical index performed in order of arrival, within a number of words; an access that does
not fit or is not due keeps its place, and later ones of the core wait behind it. Behind a held STAGE only a later STAGE to
the same word waits (R326); `kept` are the words of the STAGEs held so far. -/
def State.performAll (s : State) (lc : Nat) (p : PCore) (kept : List Nat) :
    List (Nat × Access) → Nat → State × List (Nat × Access)
  | [], _ => (s, [])
  | (l, a) :: rest, budget =>
    if l ≠ lc then
      let r := s.performAll lc p kept rest budget
      (r.1, (l, a) :: r.2)
    else
      let behind := match a.staged with | some w => kept.contains w | none => false
      let r := if behind then (s, some a, 0) else s.perform p a budget
      match r.2.1, a.staged with
      | none, _ => r.1.performAll lc p kept rest (budget - r.2.2)
      | some b, some w =>
        let t := r.1.performAll lc p (w :: kept) rest budget
        (t.1, (l, b) :: t.2)
      | some b, none =>
        let t := r.1.performAll lc p kept rest 0
        (t.1, (l, b) :: t.2)

/-- The waiting accesses of one logical core performed. -/
def State.serveHost (s : State) (lc budget : Nat) : State :=
  match s.physOf lc with
  | none => s
  | some p =>
    let todo := s.host.accesses
    let r := { s with host := { s.host with accesses := [] } }.performAll lc p [] todo budget
    { r.1 with host := { r.1.host with accesses := r.2 ++ r.1.host.accesses } }

/-- With no rubber running, every waiting access is placed at once (R15, R319), but a STAGE held for a later rubber of a
deal that still runs (R326). -/
def State.serveIdle (s : State) : State :=
  s.each ((s.host.accesses.map (·.1)).eraseDups) fun s lc => s.serveHost lc (2 ^ 32)

/-- An access arrives (R15): placed at once with no rubber running, else it waits for a host window. -/
def State.arriveAccess (s : State) (lc : Nat) (a : Access) : State :=
  let s := { s with host := { s.host with accesses := s.host.accesses ++ [(lc, a)] } }
  if s.running then s else s.serveHost lc (2 ^ 32)

/-- HOST_WINDOW: a host window of the core's vault opens in a running rubber, where the deal marks one (R15, R448): at most
256 words move (R333). -/
def execHostWindow (c : PCore) (s : State) : Out :=
  .next (if s.marked c 1 then (s.closeBanks c).serveHost (s.lcoreOf c) 256 else s)

end Sys2Proof.Machine
end

