-- ==== Sys2Proof/Machine/InBank.lean ====
section
/-! DEFINITION. In-bank units (09): the runs of an in-bank operation, the units' reports, activation tables; and
KV-attend (10): its passes, runs and chain, and the KV layout. -/

namespace Sys2Proof.Machine

/-! ### Reports (R210 to R215) -/

/-- The in-bank side of a vault replaced. -/
def State.setIb (s : State) (p : PCore) (x : InBank) : State := s.setCore p { s.core p with ib := x }

/-- Slice of a word index, as an index of slices. -/
def sliceIx (w : Nat) : Fin 8 := ⟨w / 8 % 8, Nat.mod_lt _ (by decide)⟩

/-- The unit of a slice that serves a word's bank (R200). -/
def unitOf (w : Nat) : Nat := w / 2 ^ 7 % 8

/-- The chain position of the unit that serves a word (R200). -/
def chainPos (w : Nat) : Nat := 8 * (w / 8 % 8) + unitOf w

/-- A report joins its slice's queue, or is lost where four wait (R213, R214). -/
def State.report (s : State) (p : PCore) (w kind sym : Nat) (bundle : BitVec 13) : State :=
  let ib := (s.core p).ib
  let k := sliceIx w
  let q := ib.slices[k.val]
  let q := if q.queue.length ≥ 4 then { q with lost := satAdd 6 q.lost 1 }
    else { q with queue := q.queue ++ [{ unit := unitOf w, kind, symbol := sym, word := w, bundle }] }
  s.setIb p { ib with slices := ib.slices.set k.val q }

/-- A word that a unit reads, with what it reports (R210, R211): `kind` is 1 for an operand, 2 for a destination. An
uncorrectable word makes its segment hard, whether or not its report arrives (R212, R214). -/
def State.unitRead (s : State) (p : PCore) (w kind : Nat) (bundle : BitVec 13) : State × ReadWord :=
  let s := s.layerWork p (w / 8) 1 0
  let d := decodeWord (s.vget p w)
  match d.1 with
  | .clean => (s, ⟨d.2, false⟩)
  | .corrected q => (s.report p w 0 (symbolName q) bundle, ⟨d.2, false⟩)
  | .uncorrectable => ((s.report p w kind 0 bundle).hardSegment p (segmentOf w) bundle, ⟨d.2, true⟩)

/-- Words that a unit reads in order, as a table by word index. -/
def State.unitReads (s : State) (p : PCore) (ws : List Nat) (kind : Nat) (bundle : BitVec 13) :
    State × List (Nat × ReadWord) :=
  ws.foldl (fun (a : State × List (Nat × ReadWord)) w =>
    let r := a.1.unitRead p w kind bundle
    (r.1, a.2 ++ [(w, r.2)])) (s, [])

/-- The word found in a table of words read. -/
def wordIn (t : List (Nat × ReadWord)) (w : Nat) : ReadWord :=
  ((t.find? fun x => x.1 == w).map (·.2)).getD ⟨encodeWord 0 0, false⟩

/-- Unit-cycles of activity (R206), for the counters and the estimates (R350 class 8, R366, R423 event 0x28). -/
def State.unitCycles (s : State) (p : PCore) (slice n : Nat) : State :=
  ((s.pmu p 0x28 (fun q => q / 2 ^ slice % 2 * n)).activity p 8 n).layerWork p slice 0 n

/-- A unit of a slice has been active in the present cycle; IB_STAT.BUSY shows it in the next (09 IB_STAT). -/
def State.unitBusy (s : State) (p : PCore) (slice : Nat) : State :=
  let c := s.core p
  s.setCore p { c with ib := { c.ib with active := putBit c.ib.active slice true } }

/-! ### Element arithmetic (R149) -/

/-- The table reader of an activation table of a core. -/
def State.tableByte (s : State) (p : PCore) (k i : Nat) : Byte :=
  (s.reg (Reg.IB_TAB p k (i / 8))).extractLsb' (8 * (i % 8)) 8

/-- One element of the result (R149): COPY and FILL move encodings; the others compute in FP32, one rounding for each
operation, and convert to the format. `k` is the scalar. -/
def ibElement (op : Nat) (f : Fmt) (rd : Nat → Byte) (k : W64) (a b : Nat) : Nat :=
  let x := Num.decode f a
  let y := Num.decode f b
  let back (v : Nat) : Nat := (num32 v).round f .rne
  match op with
  | 0 => a
  | 1 => k.toNat % 2 ^ f.width
  | 2 => back (rne32 (x.add false y))
  | 3 => back (rne32 (x.mul y))
  | 4 => back (rne32 (x.add false (num32 (rne32 ((num32 (fld k 31 0)).mul y)))))
  | 5 => back (rne32 ((num32 (fld k 31 0)).mul x))
  | 6 => minMaxF f true a b
  | _ =>
    if x.isNan then f.nanCode
    else match actEval rd x with
      | none => f.nanCode
      | some v => back v.1

/-- A word of the result. -/
def ibWord (op : Nat) (f : Fmt) (rd : Nat → Byte) (k : W64) (a b : BitVec 256) : BitVec 256 :=
  BitVec.ofNat 256 (packNat f.width ((List.range (256 / f.width)).map fun i =>
    ibElement op f rd k (lane a f.width i) (lane b f.width i)))

/-! ### Runs of an in-bank operation (R203 to R205) -/

/-- The runs of an in-bank operation as lists of positions in its range, in ascending order of their first word: words of
one unit within one row and, in sequence space, within one page of every range (R203, R205). -/
def ibRuns (dst a b : List Nat) (seq : Bool) : List (List Nat) :=
  let page (ws : List Nat) (i : Nat) : Nat := if seq then ws.getD i 0 / 2048 else 0
  let key (i : Nat) : Nat × Nat × Nat × Nat × Nat :=
    (dst.getD i 0 / 2 ^ 15, chainPos (dst.getD i 0), page dst i, page a i, page b i)
  let is := List.range dst.length
  ((is.map key).eraseDups).map fun k => is.filter fun i => key i == k

/-- The blocks of a run: the positions of each burst of the destination (R203). -/
def ibBlocks (dst : List Nat) (is : List Nat) : List (List Nat) :=
  ((is.map fun i => dst.getD i 0 / 8).eraseDups).map fun b => is.filter fun i => dst.getD i 0 / 8 == b

/-- The eight words of the burst that holds a word. -/
def burstWords (w : Nat) : List Nat := run (w / 8 * 8) 8

/-- A block's time in cycles (R204). -/
def ibBlockTime (op : Nat) (inPlace : Bool) : Nat :=
  if op = 1 then 72
  else if ibReadsB op then (if inPlace then 104 else 136)
  else if inPlace then 72 else 104

/-- One block (R203, R210, R211): whole bursts are read and decoded, the words that the range covers are written. -/
def State.ibBlock (s : State) (p : PCore) (op : Nat) (f : Fmt) (tab : Nat) (scalar : W64) (dst a b is : List Nat)
    (bundle : BitVec 13) : State :=
  match is with
  | [] => s
  | i0 :: _ =>
    let ra := if ibReadsA op then s.unitReads p (burstWords (a.getD i0 0)) 1 bundle else (s, [])
    let rb := if ibReadsB op then ra.1.unitReads p (burstWords (b.getD i0 0)) 1 bundle else (ra.1, [])
    let inA := ibReadsA op && a == dst
    let inB := ibReadsB op && b == dst
    let rd := if inA then (rb.1, ra.2) else if inB then (rb.1, rb.2) else rb.1.unitReads p (burstWords (dst.getD i0 0)) 2 bundle
    let tb := s.tableByte p tab
    rd.1.each is fun s i =>
      let x := wordIn ra.2 (a.getD i 0)
      let y := wordIn rb.2 (b.getD i 0)
      let d := wordIn rd.2 (dst.getD i 0)
      let poison := (ibReadsA op && x.poison) || (ibReadsB op && y.poison)
      let gen := if d.bad then 0 else d.word.gen
      (s.writeWord p (dst.getD i 0) (ibWord op f tb scalar x.word.data y.word.data) gen true poison).layerWork p
        (dst.getD i 0 / 8) 1 0

/-- A command of an in-bank operation: its word, and the positions of its run (none for IBSET and IBSCAL). -/
structure IbCommand where
  word : W64
  items : List Nat
  deriving DecidableEq, Repr

/-- The word that IBRUN carries for blocks of a run: CB is that of operand a, or of the destination of a FILL. -/
def ibRunWord (op : Nat) (dst a : List Nat) (blocks : List (List Nat)) : W64 :=
  let i := (blocks.headD []).headD 0
  ibrunCommand (cbOf (if op = 1 then dst.getD i 0 else a.getD i 0)) (blocks.map fun b => b.map fun i => dst.getD i 0)

/-- The commands of an in-bank operation in order (R205): IBSET, and IBSCAL where it uses a scalar, before the first run and
before each run whose CB offsets differ from those of the run before it; one IBRUN for each run. -/
def ibCommands (op : Nat) (f : Fmt) (tab : Nat) (dst a b : List Nat) (scalar : W64) (seq : Bool) : List IbCommand :=
  let offs (is : List Nat) : Nat × Nat :=
    let at_ (ws : List Nat) := ws.getD (is.headD 0) 0
    (if ibReadsB op then cbDiff (at_ b) (at_ a) else 0, if ibReadsA op then cbDiff (at_ dst) (at_ a) else 0)
  let which := if ibReadsA op && a == dst then 1 else if ibReadsB op && b == dst then 2 else 0
  let set (o : Nat × Nat) : List IbCommand :=
    ⟨ibsetCommand op f (if op = 7 then tab else 0) o.1 o.2 which (ibReadsB op), []⟩ ::
      (if op = 1 || op = 4 || op = 5 then [⟨ibscalCommand scalar.toNat, []⟩] else [])
  ((ibRuns dst a b seq).foldl (fun (acc : List IbCommand × Option (Nat × Nat)) is =>
    let o := offs is
    (acc.1 ++ (if acc.2 == some o then [] else set o) ++ [⟨ibRunWord op dst a (ibBlocks dst is), is⟩], some o)) ([], none)).1

/-- How many commands from the first on send context. -/
def contextCount (cs : List IbCommand) : Nat := (cs.takeWhile fun c => c.items.isEmpty).length

/-- The blocks that a command does now of those that are left, and the blocks that its word names (R207): the run's next
`n` + 1, and where a slot splits the run behind them these alone. -/
def partOf {α : Type} (left : List α) (n : BitVec 6) (cut : Bool) : List α × List α :=
  let now := left.take (n.toNat + 1)
  (now, if cut then now else left)

/-- IBRUN: the in-bank operation at the head of the queue goes on by up to `n` + 1 blocks (R203, R205). Context that is due is
sent first; a run that is not going starts with its command, and so does what a slot has left of a run, which `cut` tells
ahead (R207). -/
def execIbrun (r : BankRun) (s : State) : Out :=
  .next (match (s.core r.core).xq with
    | [] => s
    | x :: _ =>
      match x.op with
      | .ibop op f tab dst a b scalar seq =>
        if (s.core r.core).vault.awaiting then s
        else
          let cs := ibCommands op f tab dst a b scalar seq
          let k := contextCount (cs.drop x.done)
          let s := s.each ((cs.drop x.done).take k) fun s y => s.place r.core y.word
          match cs[x.done + k]? with
          | none => (s.popXfer r.core).advanceXq r.core 17
          | some y =>
            let left := (ibBlocks dst y.items).drop x.part
            let part := partOf left r.n r.cut
            let inPlace := (ibReadsA op && a == dst) || (ibReadsB op && b == dst)
            let slice := dst.getD (y.items.headD 0) 0 / 8 % 8
            let s := if x.going then s else s.place r.core (ibRunWord op dst a part.2)
            let s := s.each part.1 fun s bl => s.ibBlock r.core op f tab scalar dst a b bl x.bundle
            let cycles := (if x.going then 0 else 36) + part.1.length * ibBlockTime op inPlace
            let s := (s.unitCycles r.core slice cycles).unitBusy r.core slice
            if part.1.length < left.length then
              s.setHead r.core { x with done := x.done + k, part := x.part + part.1.length, going := !r.cut, fails := 0 }
            else if x.done + k + 1 ≥ cs.length then (s.popXfer r.core).advanceXq r.core 17
            else s.setHead r.core { x with done := x.done + k + 1, part := 0, going := false, fails := 0 }
      | _ => s)

/-! ### Reports at the controller (R212 to R215) -/

/-- The slice that the return bus serves next (R213): the first with something to send after the one it served last. -/
def InBank.nextSlice (ib : InBank) : Option (Fin 8) :=
  ((List.range 8).map fun i => (⟨(ib.last.val + 1 + i) % 8, Nat.mod_lt _ (by decide)⟩ : Fin 8)).find? fun k =>
    !(ib.slices[k.val]).queue.isEmpty || (ib.slices[k.val]).lost != 0

/-- CE of the units counted, with IB_CE_THRESHOLD while armed (R215). -/
def State.countIbCe (s : State) (p : PCore) (bundle : BitVec 13) : State :=
  let s := s.count (Reg.IB_ERR_CNT p) 15 0 1
  let ce := s.rd (Reg.IB_ERR_CNT p) 15 0
  let th := s.rd (Reg.IB_CFG p) 31 16
  let ib := (s.core p).ib
  if ib.armed && th != 0 && decide (th ≤ ce) then
    (s.setIb p { ib with armed := false }).vaultEvent p 0x17 (BitVec.ofNat 64 ce) REQ_NONE bundle
  else s

/-- A new entry of the units' log at NEXT. -/
def State.ibLogEntry (s : State) (p : PCore) (v : Nat) : State :=
  let i := s.rd (Reg.IB_LOG_STAT p) 3 0
  let s := if bit (s.reg (Reg.IB_LOG p i)) 63 then s.wr (Reg.IB_LOG_STAT p) 4 4 1 else s
  (s.setReg (Reg.IB_LOG p i) (BitVec.ofNat 64 v)).wr (Reg.IB_LOG_STAT p) 3 0 ((i + 1) % 16)

/-- A report handled (R212, R215). -/
def State.handleReport (s : State) (p : PCore) (slice : Fin 8) (r : IbReport) : State :=
  let place := slice.val * 2 ^ 51 + r.unit * 2 ^ 48 + r.word
  if r.kind = 0 then
    let s := s.countIbCe p r.bundle
    let hard := (List.range 16).any fun i =>
      let e := s.reg (Reg.VLT_CE_LOG p i)
      bit e 63 && bit e 62 && fld e 24 0 == r.word && fld e 55 48 == r.symbol
    let s := match (List.range 16).find? fun i =>
        let e := s.reg (Reg.IB_LOG p i)
        bit e 63 && !bit e 62 && fld e 24 0 == r.word && fld e 59 54 == r.symbol with
      | some i => if hard then s.wr (Reg.IB_LOG p i) 60 60 1 else s
      | none => s.ibLogEntry p (2 ^ 63 + ofBool hard * 2 ^ 60 + r.symbol * 2 ^ 54 + place)
    if hard then s.hardSegment p (segmentOf r.word) r.bundle else s
  else
    let dest := r.kind == 2
    let s := s.ibLogEntry p (2 ^ 63 + 2 ^ 62 + ofBool dest * 2 ^ 61 + 2 ^ 60 + place)
    let s := if dest then s.count (Reg.IB_ERR_CNT p) 47 32 1 else s.count (Reg.IB_ERR_CNT p) 31 16 1
    s.vaultEvent p 0x1A
      (BitVec.ofNat 64 (ofBool dest * 2 ^ 31 + slice.val * 2 ^ 28 + r.unit * 2 ^ 25 + r.word)) REQ_NONE r.bundle

/-- IB_REPORT: the return bus carries the next slice's next report (R213 to R215): its count of lost reports first, else
the oldest of its queue. A report whose parity fails is one lost report. -/
def execIbReport (c : PCore) (parityOk : Bool) (s : State) : Out :=
  .next (
    let ib := (s.core c).ib
    match ib.nextSlice with
    | none => s
    | some k =>
      let q := ib.slices[k.val]
      if q.lost ≠ 0 then
        let s := s.setIb c { ib with last := k, slices := ib.slices.set k.val { q with lost := 0 } }
        s.count (Reg.IB_ERR_CNT c) 63 48 (if parityOk then q.lost else 1)
      else match q.queue with
        | [] => s
        | r :: rest =>
          let s := s.setIb c { ib with last := k, slices := ib.slices.set k.val { q with queue := rest } }
          if parityOk then s.handleReport c k r else s.count (Reg.IB_ERR_CNT c) 63 48 1)

/-- IB_REPORT_TIMEOUT: the oldest report of a slice has not begun within 31 CLK_IB cycles: it is dropped, and its slice
will report it as lost (R214). -/
def execIbReportTimeout (c : PCore) (slice : Fin 8) (s : State) : Out :=
  .next (
    let ib := (s.core c).ib
    let q := ib.slices[slice.val]
    match q.queue with
    | [] => s
    | _ :: rest => s.setIb c { ib with slices := ib.slices.set slice.val { queue := rest, lost := satAdd 6 q.lost 1 } })

/-! ### Tables and layout (R216, R220) -/

/-- The table windows and IB_TAB_VALID may be accessed (R216). -/
def State.tableOpen (s : State) (p : PCore) : Bool := s.testable p && s.rd (Reg.CORE_PWR p) 5 4 == 0

/-- A host write to a register of an activation table, or to IB_TAB_VALID: in the states of R216 it reaches all copies;
otherwise it is logged. -/
def State.tableWrite (s : State) (p : PCore) (a : Nat) (v : W64) : State :=
  if s.tableOpen p then
    match regRow a with
    | some row => s.setReg a (row.write (s.reg a) v)
    | none => s
  else s.access 0 a

/-- What a host read of a table window register returns (R216): zero where access is not allowed. -/
def State.tableRead (s : State) (p : PCore) (k w : Nat) : W64 := if s.tableOpen p then s.reg (Reg.IB_TAB p k w) else 0

/-- IB_TAB_WRITE: a host write to 64-bit register w of the window of table k. -/
def execIbTabWrite (c : PCore) (k : Fin 16) (w : Fin 256) (v : W64) (s : State) : Out :=
  .next (s.tableWrite c (Reg.IB_TAB c k.val w.val) v)

/-- KV_LAYOUT_WRITE: a host write to IB_KV_TOK or IB_KV_CFG, without effect and logged while the core runs or is held
(R220). -/
def execKvLayoutWrite (c : PCore) (tok : Bool) (v : W64) (s : State) : Out :=
  .next (
    let a := if tok then Reg.IB_KV_TOK c else Reg.IB_KV_CFG c
    if s.coreState c == CS_RUNNING || s.coreState c == CS_HELD then s.access 0 a
    else match regRow a with
      | some row => s.setReg a (row.write (s.reg a) v)
      | none => s)

/-! ### KV-attend (R221, R225 to R236) -/

/-- The byte offset of chunk burst b of the unit at chain position q within its page (R221). -/
def chunkOffset (q b : Nat) : Nat := b / 2 * 0x8000 + (2 * (q % 8) + b % 2) * 0x800 + q / 8 * 0x100

/-- The rows of a pass. -/
def Kv.passRows (d : Kv) (g : Nat) : List Nat := (run (8 * g) 8).filter fun r => decide (r < d.rows)

/-- The blocks of a chain position, in ascending page, each with its page's vault address. -/
def State.kvBlocks (s : State) (p : PCore) (d : Kv) (q : Nat) : List KvBlock :=
  (d.pages.filter fun n => (d.blocksOf n).contains q).map fun n =>
    { page := n, vbase := s.vaddr p true (d.pageAddr n), slots := d.chunk n q }

/-- A block continues a run of k blocks after another: the next page, at the next vault page, in the same vault row. -/
def KvBlock.follows (c last : KvBlock) (k : Nat) : Bool :=
  decide (k < 16) && c.page == last.page + 1 && c.vbase == last.vbase + 65536 && c.vbase / 2 ^ 20 == last.vbase / 2 ^ 20

/-- The blocks that continue a run of k blocks. -/
def kvTake (last : KvBlock) (k : Nat) : List KvBlock → List KvBlock
  | [] => []
  | c :: cs => if c.follows last k then c :: kvTake c (k + 1) cs else []

/-- Blocks divided into runs, each filled from its first block on (R234); `fuel` is their number. -/
def kvRunsAt : Nat → List KvBlock → List (List KvBlock)
  | 0, _ => []
  | _, [] => []
  | n + 1, b :: bs =>
    let r := b :: kvTake b 1 bs
    r :: kvRunsAt n (bs.drop (r.length - 1))

/-- The runs of a pass, in ascending chain position and page (R233, R234). -/
def State.kvRuns (s : State) (p : PCore) (d : Kv) : List KvRun :=
  (List.range 64).flatMap fun q =>
    let bs := s.kvBlocks p d q
    (kvRunsAt bs.length bs).map fun b => { q, blocks := b }

/-- Query row r as it stands in scratch, with its poison (R151, R152). -/
def Core.queryRow (c : Core) (d : Kv) (r : Nat) : BitVec 2048 × Bool :=
  let a := d.qaddr + 256 * r
  (BitVec.ofNat 2048 (c.scratch.num a 256), c.scratchTainted a 256)

/-- The BF16 elements of a query row. -/
def queryElems (x : BitVec 2048) : List Num := (lanes x 16 128).map (Num.decode .bf16)

/-- The context word of a pass (R233). -/
def Kv.context (d : Kv) (g : Nat) : BitVec 256 :=
  BitVec.ofNat 256 (d.t0 + d.t1 * 2 ^ 32 + d.p0 * 2 ^ 64 + d.heads * 2 ^ 96 + ofBool d.causal * 2 ^ 104 + 8 * g * 2 ^ 112 +
    d.tphase * 2 ^ 128 + d.tstride * 2 ^ 160)

/-- The output row of a query row written (R151, R229, R231); a poisoned query row poisons it (R152). -/
def State.writeRow (s : State) (p : PCore) (d : Kv) (r : Nat) (x : KvRow) (query : Bool) : State :=
  let bytes := (x.normalise d.norm).bytes
  let a := d.oaddr + 544 * r
  s.setCore p ((List.range 17).foldl (fun c i =>
    c.writeWord (a + 32 * i) (BitVec.ofNat 256 (leNat ((bytes.drop (32 * i)).take 32))) (x.poison || query)) (s.core p))

/-- The pass in progress replaced. -/
def State.setKv (s : State) (p : PCore) (k : Option KvPass) : State := s.setIb p { (s.core p).ib with kv := k }

/-- A KV-attend's next pass, or its end (R233). -/
def State.nextPass (s : State) (p : PCore) (d : Kv) (k : KvPass) : State :=
  if 8 * (k.pass + 1) < d.rows then s.setKv p (some (KvPass.fresh (k.pass + 1) k.nan))
  else ((s.setKv p none).popXfer p).advanceXq p 17

/-- The KV-attend at the head of the queue. -/
def Core.kvHead (c : Core) : Option (Xfer × List Byte) :=
  match c.xq with
  | x :: _ => match x.op with | .kvatt d => some (x, d) | _ => none
  | [] => none

/-- The pass of the KV-attend at the head of the queue. -/
def Core.kvPass (c : Core) : KvPass := c.ib.kv.getD (KvPass.fresh 0 false)

/-- KVSET: the context and query rows of the next pass are sent to every slice, and its runs are formed (R233, R234). A
pass without a block writes its rows as rows that see no token (R229). -/
def execKvset (c : PCore) (s : State) : Out :=
  .next (match (s.core c).kvHead with
    | none => s
    | some h =>
      let d := s.kv c h.2
      let k := (s.core c).kvPass
      if k.set || (s.core c).vault.awaiting then s
      else
        let rows := d.passRows k.pass
        let queries := rows.map ((s.core c).queryRow d)
        let runs := s.kvRuns c d
        if runs.isEmpty then
          (s.each (rows.zip queries) fun s r => s.writeRow c d r.1 KvRow.zero r.2.2).nextPass c d k
        else
          (s.place c (kvsetCommand d.bf16 rows.length d.scale)).setKv c (some { k with
            set := true, context := d.context k.pass, queries, runs, qlo := (runs.map (·.q)).foldl min 63 }))

/-- A token as a unit reads it: slot, key and value, whether a word it used is poisoned (R221, R231), and whether one of its
scales is 0xFF (R47). -/
structure KvToken where
  token : Nat
  key : List Num
  value : List Num
  poison : Bool
  scaleNan : Bool
  deriving DecidableEq, Repr

/-- Elements of a list of words, of a format. -/
def wordElems (f : Fmt) (ws : List ReadWord) : List Num :=
  ws.flatMap fun w => (lanes w.word.data f.width (256 / f.width)).map (Num.decode f)

/-- Elements multiplied by the scales of their blocks of 16. -/
def scaleElems (xs : List Num) (sc : Nat → Nat) : List Num := xs.mapIdx fun i x => x.mul (Num.ofScale (sc (i / 16)))

/-- A block's tokens, read from the page (R221), in ascending slot order. -/
def State.kvTokens (s : State) (p : PCore) (d : Kv) (q : Nat) (b : KvBlock) (bundle : BitVec 13) : State × List KvToken :=
  b.slots.foldl (fun (a : State × List KvToken) sl =>
    let i := sl % d.tpp / 64
    let word (o : Nat) : Nat := (b.vbase + o) / 32
    if d.bf16 then
      let k := a.1.unitReads p (run (word (chunkOffset q (2 * i))) 8) 1 bundle
      let v := k.1.unitReads p (run (word (chunkOffset q (2 * i + 1))) 8) 1 bundle
      let ks := k.2.map (·.2)
      let vs := v.2.map (·.2)
      (v.1, a.2 ++ [{ token := d.token sl, key := wordElems .bf16 ks, value := wordElems .bf16 vs,
                      poison := (ks ++ vs).any ReadWord.poison, scaleNan := false }])
    else
      let e := a.1.unitReads p (run (word (chunkOffset q i)) 8) 1 bundle
      let sw := e.1.unitReads p [word (chunkOffset q 3 + 16 * i)] 1 bundle
      let es := e.2.map (·.2)
      let sc := (sw.2.map (·.2)).headD ⟨encodeWord 0 0, false⟩
      let byte (m : Nat) : Nat := lane sc.word.data 8 (16 * (i % 2) + m)
      (sw.1, a.2 ++ [{ token := d.token sl, key := scaleElems (wordElems .e4m3 (es.take 4)) byte,
                       value := scaleElems (wordElems .e4m3 (es.drop 4)) (fun m => byte (8 + m)),
                       poison := es.any ReadWord.poison || sc.poison,
                       scaleNan := (List.range 16).any fun m => byte m == 255 }])) (s, [])

/-- The state that a unit holds for a row. -/
def KvPass.held (k : KvPass) (q r : Nat) : Option KvRow :=
  (k.states.find? fun x => x.1 == q && x.2.1 == r).map (·.2.2)

/-- The unit's state for a row replaced. -/
def KvPass.hold (k : KvPass) (q r : Nat) (x : KvRow) : KvPass :=
  { k with states := k.states.filter (fun y => !(y.1 == q && y.2.1 == r)) ++ [(q, r, x)] }

/-- The query row r as KVSET brought it. -/
def KvPass.query (k : KvPass) (r : Nat) : BitVec 2048 × Bool := k.queries.getD (r - 8 * k.pass) (0, false)

/-- A block processed for every row of the pass that sees one of its tokens (R227, R231). -/
def KvPass.block (k : KvPass) (d : Kv) (q : Nat) (toks : List KvToken) : KvPass :=
  (d.passRows k.pass).foldl (fun (k : KvPass) (r : Nat) =>
    let seen := toks.filter fun t => d.sees r t.token
    if seen.isEmpty then k
    else
      let x := (k.held q r).getD KvRow.zero
      let y := x.update (seen.map fun t => (kvScore d.scale (queryElems (k.query r).1) t.key, t.value))
      k.hold q r { y with poison := y.poison || seen.any (·.poison) }) k

/-- A KV block's time in cycles (R235). -/
def Kv.blockTime (d : Kv) (nr n : Nat) : Nat := 4 * (if d.bf16 then 4 + n * (16 * nr + 4) else 8 + n * (8 * nr + 4))

/-- A scale of 0xFF has been read (R47): SCALE_NAN, and its event once for the KV-attend. -/
def State.kvNan (s : State) (p : PCore) (nan raised : Bool) (bundle : BitVec 13) : State :=
  if nan && raised then s.orReg (Reg.CORE_NUM_FLAGS p) 8
  else if nan then s.numFlags p { scaleNan := true : ConvFlags }.mask 0 3 bundle
  else s

/-- The word that KVRUN carries for blocks of one unit (R234): the page that holds its first block, and the places of the
tokens considered in the first block and the last. -/
def kvRunWord (d : Kv) (q : Nat) (blocks : List KvBlock) : W64 :=
  let places (b : Option KvBlock) : List Nat := match b with
    | some b => b.slots.map fun j => j % d.tpp / 64
    | none => []
  let first := blocks.head?
  let word := match first with | some b => (b.vbase + chunkOffset q 0) / 32 | none => 0
  kvrunCommand q word blocks.length (places first) (places blocks.getLast?) (match first with | some b => b.page | none => 0)

/-- KVRUN: the next run of the pass goes on by up to `n` + 1 blocks (R227, R234); it starts with its command, and so does
what a slot has left of it (R207). -/
def execKvrun (x : BankRun) (s : State) : Out :=
  .next (match (s.core x.core).kvHead, (s.core x.core).ib.kv with
    | some h, some k =>
      match k.runs with
      | [] => s
      | r :: rest =>
        if (s.core x.core).vault.awaiting || !k.set then s
        else
          let d := s.kv x.core h.2
          let part := partOf r.blocks x.n x.cut
          let s := if h.1.going then s else s.place x.core (kvRunWord d r.q part.2)
          let out := part.1.foldl (fun (a : State × KvPass) b =>
            let t := a.1.kvTokens x.core d r.q b h.1.bundle
            let nan := t.2.any (·.scaleNan)
            (t.1.kvNan x.core nan a.2.nan h.1.bundle, { a.2.block d r.q t.2 with nan := a.2.nan || nan })) (s, k)
          let nr := (d.passRows k.pass).length
          let cycles := (if h.1.going then 0 else 36) + (part.1.map fun b => d.blockTime nr b.slots.length).sum
          let s := (out.1.unitCycles x.core (r.q / 8) cycles).unitBusy x.core (r.q / 8)
          let left := r.blocks.drop part.1.length
          let s := s.setHead x.core { h.1 with going := !left.isEmpty && !x.cut, fails := 0 }
          s.setKv x.core (some { out.2 with runs := if left.isEmpty then rest else { r with blocks := left } :: rest })
    | _, _ => s)

/-- The record that a CHAIN from position q sends (R236): at q_lo the unit's own state for the next row, elsewhere the record
that arrived there, merged as the earlier operand with the unit's own state if it has one (R217, R229). -/
def KvPass.sends (k : KvPass) (d : Kv) (q : Nat) : Option (Nat × KvRow) :=
  if q = k.qlo then
    if k.row < 8 * k.pass + (d.passRows k.pass).length then some (k.row, (k.held q k.row).getD KvRow.zero) else none
  else (k.records.find? fun x => x.1 == q).map fun x =>
    (x.2.1, match k.held q x.2.1 with | some y => x.2.2.merge y | none => x.2.2)

/-- A CHAIN from position q may be placed (R236): the unit's runs have ended, the record that it sends has arrived, and the
record register it goes to is free. -/
def KvPass.mayChain (k : KvPass) (d : Kv) (q : Nat) : Bool :=
  k.set && !k.runs.any (·.q == q) && (k.sends d q).isSome && !k.records.any (·.1 == q + 1)

/-- The record that position q held has left it. -/
def KvPass.without (k : KvPass) (q : Nat) : KvPass :=
  if q = k.qlo then { k with row := k.row + 1 } else { k with records := k.records.filter fun x => x.1 != q }

/-- The pass goes on, or the next one begins once every row has left the chain (R233). -/
def State.passOn (s : State) (p : PCore) (d : Kv) (k : KvPass) : State :=
  if k.records.isEmpty && decide (8 * k.pass + (d.passRows k.pass).length ≤ k.row) then s.nextPass p d k
  else s.setKv p (some k)

/-- CHAIN: the record of the unit at chain position q hops to the next (R217, R236), and from position 63 to scratch (R229). -/
def execChain (x : ChainHop) (s : State) : Out :=
  .next (match (s.core x.core).kvHead, (s.core x.core).ib.kv with
    | some h, some k =>
      let d := s.kv x.core h.2
      match k.sends d x.pos.val with
      | none => s
      | some r =>
        if !k.mayChain d x.pos.val || (s.core x.core).vault.awaiting then s
        else
          let hop (s : State) (q : Nat) : State := (s.unitCycles x.core (q / 8) 80).unitBusy x.core (q / 8)
          let s := hop ((s.place x.core (chainCommand x.pos.val r.1)).setHead x.core { h.1 with fails := 0 }) x.pos.val
          if x.pos.val < 63 then
            let k := k.without x.pos.val
            (hop s (x.pos.val + 1)).setKv x.core (some { k with records := k.records ++ [(x.pos.val + 1, r)] })
          else (s.writeRow x.core d r.1 r.2 (k.query r.1).2).passOn x.core d (k.without x.pos.val)
    | _, _ => s)

/-! ### Commands whose CRC-8 fails, return status, re-sends (R176 to R178) -/

/-- A command of an in-bank operation has failed its fourth attempt (R178): VCH_RETRY_EXHAUSTED; a run is left undone, and
without its context so is every run up to the next context (log entry 29). -/
def State.ibExhausted (s : State) (p : PCore) (x : Xfer) (cs : List IbCommand) (dst : List Nat) (j : Nat) : State :=
  match cs[j]? with
  | none => s
  | some y =>
    let w := match y.items with | [] => 0 | i :: _ => dst.getD i 0 / 8 * 8
    let s := s.exhausted p (kindOf y.word) w true x.bundle
    let rest := cs.drop (j + 1)
    let ctx := contextCount rest
    let skip := if y.items.isEmpty then ctx + ((rest.drop ctx).takeWhile fun c => !c.items.isEmpty).length else 0
    if j + 1 + skip ≥ cs.length then (s.popXfer p).advanceXq p 17
    else s.setHead p { x with done := j + 1 + skip, part := 0, going := false, fails := 0 }

/-- A command of a KV-attend has failed its fourth attempt (R178): the pass, the rest of the run or the row is left undone (log
entry 29). `q` is the chain position of a CHAIN. -/
def State.kvExhausted (s : State) (p : PCore) (x : Xfer) (desc : List Byte) (q : Nat) : State :=
  let d := s.kv p desc
  let k := (s.core p).kvPass
  let s := s.setHead p { x with going := false, fails := 0 }
  if !k.set then (s.exhausted p 0x0B 0 true x.bundle).nextPass p d k
  else match k.runs with
    | r :: rest =>
      let w := match r.blocks with | b :: _ => (b.vbase + chunkOffset r.q 0) / 256 * 8 | [] => 0
      (s.exhausted p 0x0C w true x.bundle).setKv p (some { k with runs := rest })
    | [] => (s.exhausted p 0x0D 0 true x.bundle).passOn p d (k.without q)

/-- The command of the head of the queue has failed its CRC-8 an attempt (R177, R178): it waits for its re-send, or is given up
with the fourth. `n` picks, of an in-bank operation, the command among the context that is due and the run behind it (those
before it were received), and, of a KV-attend, the position of a CHAIN. -/
def State.commandFailed (s : State) (p : PCore) (x : Xfer) (n : Nat) : State :=
  match x.op with
  | .load dst ws =>
    let w := ws.getD x.done 0
    let y := { x with done := burstStart ws x.done }
    if x.fails + 1 ≥ 4 then
      ((s.await p false 0 []).exhausted p 1 (w / 8 * 8) true x.bundle).failBurst p { y with fails := 4 } dst ws [] 8
    else s.commandAgain p y
  | .ibop op f tab dst a b scalar seq =>
    let cs := ibCommands op f tab dst a b scalar seq
    let j := x.done + min n (contextCount (cs.drop x.done))
    let y := { x with done := j, fails := if j = x.done then x.fails else 0 }
    if y.fails + 1 ≥ 4 then (s.await p false 0 []).ibExhausted p y cs dst j else s.commandAgain p y
  | .kvatt d => if x.fails + 1 ≥ 4 then (s.await p false 0 []).kvExhausted p x d n else s.commandAgain p x
  | _ => s

/-- The command on the bus failed its CRC-8: that of the head of the queue where it is a load, an in-bank operation or a
KV-attend, else that of write burst n, or of the burst that the controller reads next. -/
def State.busFailed (s : State) (p : PCore) (n : Nat) : State :=
  let burst : State := if n < (s.core p).vault.bursts.length then s.burstFailed p n [] else s.spoil p []
  match (s.core p).xq with
  | x :: _ =>
    match x.op with
    | .load .. | .ibop .. | .kvatt _ => s.commandFailed p x n
    | _ => burst
  | [] => burst

/-- RETURN_STATUS: the return bus reports in one cycle on a block written and on a command (R176, R177). `n` names the
write burst concerned, `flips` the lines that differed in its block. A cycle whose parity is not odd fails whatever it
reports on. -/
def execReturnStatus (c : PCore) (status : BitVec 16) (n : Nat) (flips : List (Fin 608)) (s : State) : Out :=
  .next (
    let bad := ((List.range 16).countP fun i => status.getLsbD i) % 2 == 0
    let block := (bad || bit status 0) && decide (n < (s.core c).vault.bursts.length)
    let s := if block then s.burstFailed c n (flips.map (·.val)) else s
    let head := match (s.core c).xq with
      | x :: _ => (match x.op with | .load .. | .ibop .. | .kvatt _ => true | _ => false)
      | [] => false
    if (bit status 1 && (head || !block)) || (bad && head) then s.busFailed c n else s)

/-- CHANNEL_RESEND: the failed burst or command takes the next command-bus slot (R177), its transfer again with some lines
flipped; the fourth failure is reported (R178). -/
def execChannelResend (c : PCore) (flips : List (Fin 608)) (s : State) : Out :=
  .next (
    let v := (s.core c).vault
    let fl := flips.map (·.val)
    if v.awaiting then
      let s := (s.countResend c).setVault c { ((s.countResend c).core c).vault with awaiting := false }
      match (s.core c).xq with
      | x :: _ =>
        match x.op with
        | .load dst ws => s.loadBlock c x dst ws fl
        | _ => s
      | [] => s
    else
      match v.bursts.findIdx? (·.pending) with
      | none => s
      | some n =>
        match v.bursts[n]? with
        | none => s
        | some b =>
          let s := ((s.countResend c).placeBurst c b.kind (!b.ofHand) b.words).blocksMoved c (blocksIn b.words)
          if flips.isEmpty then
            ((s.putWords c b.words b.new).setBurst c n { b with pending := false, flips := [] }).attribute c b.flips
          else (s.attribute c (differing b.flips fl)).burstFailed c n fl)

end Sys2Proof.Machine
end

