-- ==== Sys2Proof/Machine/Schedule.lean ====
section
/-! DEFINITION. The schedule's boundaries (11; 04 R78, R89 to R100): notices, holding and stopping, the end of a trick and
of a rubber, the start and the replay of a rubber. -/

namespace Sys2Proof.Machine

/-! ### Notices (R249 to R258) -/

/-- Kinds of notice (R250). -/
abbrev NK_REPLAY : Nat := 0
abbrev NK_HOLD : Nat := 1
abbrev NK_STOP : Nat := 2
abbrev NK_ESCALATE : Nat := 3
abbrev NK_DEFER : Nat := 4

/-- The rank of a kind among the kinds that hold: replay below hold and escalate, below stop (R92, R251). -/
def noticeRank (kind : Nat) : Nat := if kind = NK_STOP then 2 else if kind = NK_REPLAY then 0 else 1

/-- The seat changed. -/
def State.setSeat (s : State) (x : Seat) : State := { s with seat := x }

/-- TBL_STAT.STATE set. -/
def State.setTbl (s : State) (st : Nat) : State := s.wr Reg.TBL_STAT 3 0 st

/-- Table time reaches the edge of a tick that is named, if it has not passed it; the cycles until then have passed. -/
def State.atTick (s : State) (t : W64) : State :=
  { s.setReg Reg.TBL_TIME (BitVec.ofNat 64 (max s.now t.toNat)) with
    guarded := if s.now < t.toNat then [] else s.guarded, added := if s.now < t.toNat then [] else s.added,
    seat := { s.seat with phase := 0, cycles := s.seat.cycles + (t.toNat - s.now) * 96 / s.rootCycles } }

/-- A number rounded up to a multiple of 5 (R241, R253). -/
def tick5 (n : Nat) : Nat := roundUp n 5

/-- The attempt of a rubber (R254). -/
def State.attemptOf (s : State) (u : Nat) : Nat :=
  if u = s.rubber then s.attempt else ((s.seat.attempts.find? fun x => x.1.toNat == u).map (·.2)).getD 0

/-- A notice is flooded on every link that carries notices except one (R249); each frame is sent twice (R283). -/
def State.flood (s : State) (n : Notice) (but : Option LinkIx) : State :=
  s.each (allLinks.filter fun l => s.linkOpen l && but != some l) fun s l =>
    let x := s.link l
    s.setLink l { x with notices := x.notices ++ [(n, 2)] }

/-! ### Power terms at a trick (R352, R353) -/

/-- The fraction applied: the largest of the governor's terms, at most 56 (R353). -/
def State.applyBubble (s : State) (t : Tower) : State :=
  let r := s.reg (Reg.PWR_BUBBLE t)
  s.wr (Reg.PWR_BUBBLE t) 5 0 (min 56 (max (max (fld r 13 8) (fld r 21 16)) (max (fld r 37 32) (fld r 29 24))))

/-- A planned fraction (R352). -/
def planned (a eff : Nat) : Nat := if a ≤ eff then 0 else min 56 (ceilDiv (64 * (a - eff)) a)

/-- PRE of each tower from the annotation of the trick that begins (R352). -/
def State.formPre (s : State) : State :=
  match s.tricks[s.seat.trick.toNat]? with
  | none => s
  | some e => s.each allTowers fun s t =>
    (s.wr (Reg.PWR_BUBBLE t) 21 16 (planned (e.power.getD t.val 0) (s.rd (Reg.PWR_BUDGET t) 47 32))).applyBubble t

/-- PRE of a tower outside a running trick is zero. -/
def State.clearPre (s : State) : State := s.each allTowers fun s t => (s.wr (Reg.PWR_BUBBLE t) 21 16 0).applyBubble t

/-! ### Egress (R335) -/

/-- Egress of a rubber that has completed: its half waits to be read; a half of the rubber before it that has not been read
is lost. -/
def State.egressBoundary (s : State) (u : Nat) : State :=
  let lost := s.crix.egress.filter fun e => decide (e.rubber < u) && e.words.isNone
  let s := s.each lost fun s e => s.eventN 0x55 e.rubber 0
  let kept := s.crix.egress.filter fun e => !(decide (e.rubber < u) && e.words.isNone)
  let acc := s.host.accesses.filter fun a => match a.2 with | .egress r => !decide (r < u) | _ => true
  let on := bit (s.reg Reg.HST_CX_EGR) 63
  { s with crix := { s.crix with egress := if on then kept ++ [⟨u, s.reg Reg.TBL_DEAL, none⟩] else kept },
           host := { s.host with accesses := if on then acc ++ [(s.rd Reg.HST_CX_EGR 47 40, .egress u)] else acc } }

/-- A notice for a rubber discards what was read of its egress and of later rubbers (R335). -/
def State.egressDiscard (s : State) (u : Nat) : State :=
  { s with crix := { s.crix with egress := s.crix.egress.filter fun e => decide (e.rubber < u) },
           host := { s.host with accesses := s.host.accesses.filter fun a => match a.2 with | .egress r => decide (r < u) | _ => true } }

/-! ### Holding and stopping (R251, R257) -/

/-- A core's queued array, vault, in-bank and transfer work is abandoned (R168, R180, R209, R251). -/
def Core.abandon (c : Core) : Core :=
  { c with arrays := c.arrays.map (fun a => { a with queue := [], drain := none }), xq := [], used := [], waiting := none,
           readySince := none, due := [], owed := 0, ports := [], ib := { c.ib with kv := none },
           vault := { c.vault with awaiting := false, bursts := c.vault.bursts.filter fun b => !b.ofHand } }

/-- Sends of this seat that have not left are dropped (R251). -/
def State.dropSends (s : State) : State :=
  s.each allLinks fun s l => let x := s.link l; s.setLink l { x with out := x.out.filter fun f => !f.2 }

/-- A tower is held under R346. -/
def State.critical (s : State) (t : Tower) : Bool := s.rd Reg.PWR_RAIL_STAT (5 + t.val) (5 + t.val) == 1

/-- Every core of a tower held under R346 that is ON enters RET at the hold. -/
def State.criticalRet (s : State) : State :=
  s.each (allCores.filter fun p => s.critical (towerOf p) && s.rd (Reg.CORE_PWR p) 5 4 == 0) fun s p =>
    (s.wr (Reg.CORE_PWR p) 1 0 1).wr (Reg.CORE_PWR p) 8 8 1

/-- The cores stop issuing: those that run or are held read STOPPED, queued work is abandoned, and requests on their way have
nothing left to hold (log entry 71). -/
def State.haltCores (s : State) : State :=
  let s := s.each s.serving fun s p =>
    let s := s.flushIssue p
    let s := s.setCore p (s.core p).abandon
    if s.coreState p = CS_RUNNING ∨ s.coreState p = CS_HELD then s.setCoreState p CS_STOPPED else s
  s.each allCores fun s p => s.setCore p { s.core p with requests := [] }

/-- The seat becomes STOPPED (R257): its cores STOPPED, a core that raised the stop FAULTED; requests on their way have
nothing left to hold, held sequence writes no boundary left to wait for (log entry 71); waiting STOPs complete, what else was
named no longer comes. -/
def State.stopSeat (s : State) : State :=
  let s := s.haltCores
  let s := (s.dropSends.setTbl TS_STOPPED).applyHeld fun _ => true
  let x := s.seat
  let s := s.setSeat { x with startAt := none, replayAt := none, variantAt := none, step := none, stops := [], hold := none,
                              lowest := none }
  let s := s.each x.stops fun s c => s.complete c 0 0 0
  let cut := (match x.startAt with | some a => [a.2] | none => []) ++
    (match x.replayAt with | some (_, some a) => [a.2] | _ => []) ++
    (match x.variantAt with | some a => [a.2.2] | none => []) ++ (match x.step with | some a => [a.cmd] | none => [])
  let s := s.each cut fun s c => s.complete c 1 TS_STOPPED 0
  s.clearPre.serveIdle

/-- The seat holds at the end of its trick (R251): cores HELD, queued work abandoned, sends not left dropped. -/
def State.holdSeat (s : State) : State :=
  let s := s.each s.serving fun s p =>
    let s := s.flushIssue p
    let s := s.setCore p (s.core p).abandon
    if s.coreState p = CS_RUNNING then s.setCoreState p CS_HELD else s
  let s := (s.dropSends.setTbl TS_HELD).criticalRet
  if s.seat.hold = some 2 then s.stopSeat else s.clearPre.serveIdle

/-! ### Taking and originating notices -/

/-- The last guarded trick of the rubber after the one a notice names has ended, or its own T_R has passed (R256). -/
def State.isLate (s : State) (n : Notice) : Bool :=
  (n.kind == 0 && decide (n.actTick.toNat < s.now)) || decide (n.rubber.toNat + 1 < s.rubber) ||
    (n.rubber.toNat + 1 == s.rubber && decide (s.lastGuarded < s.seat.trick.toNat))

/-- The last notice the seat acted on: its bytes 0 to 15 and its ACT_TICK, in TBL_NOTICE, TBL_NOTICE_HI and TBL_NOTICE_TICK
(R250). -/
def State.recordNotice (s : State) (n : Notice) : State :=
  ((s.setReg Reg.TBL_NOTICE n.lo).setReg Reg.TBL_NOTICE_HI n.hi).setReg Reg.TBL_NOTICE_TICK n.actTick

/-- The seat acts on a notice of kind 0 to 3 (R251, R253): the strongest kind, the lowest rubber and the latest replay tick
of the episode; a seat that already holds and takes a stop becomes STOPPED; a stepping seat that takes a hold stays HELD
while its clock change goes on (R378). -/
def State.actOn (s : State) (n : Notice) : State :=
  let s := (s.recordNotice n).egressDiscard n.rubber.toNat
  let x := s.seat
  let k := noticeRank n.kind.toNat
  let hold := match x.hold with | some h => max h k | none => k
  let lowest := match x.lowest with | some u => if n.rubber.toNat < u.toNat then n.rubber else u | none => n.rubber
  let rep := if n.kind = 0 then
      match x.replayAt with
      | some (t, none) => some (if t.toNat < n.actTick.toNat then n.actTick else t, none)
      | some (t, some c) => some (t, some c)
      | none => some (n.actTick, none)
    else x.replayAt
  let s := s.setSeat { x with hold := some hold, lowest := some lowest, replayAt := rep }
  if s.running then s
  else if hold = 2 then s.stopSeat
  else if s.tblState = TS_STEPPING then s.setTbl TS_HELD else s

/-- A step deferral is adopted: the latest resume tick (R263). -/
def State.defer (s : State) (n : Notice) : State :=
  match s.seat.step with
  | some p => (s.recordNotice n).setSeat { s.seat with step := some { p with resume := if p.resume.toNat < n.actTick.toNat then n.actTick else p.resume } }
  | none => s

/-- A notice that this seat originates is flooded and acted on. -/
def State.issueNotice (s : State) (n : Notice) : State :=
  let s := s.setSeat { s.seat with seen := s.seat.seen ++ [n] }
  let s := s.flood n none
  if n.kind.toNat = NK_DEFER then s.defer n else if s.dealRuns then s.actOn n else s

/-- A notice of the seat for a rubber: its fields at this moment. -/
def State.notice (s : State) (kind rubber lcore trick code : Nat) (bundle : BitVec 13) (seatLvl : Bool) (act : W64) : Notice :=
  { kind := BitVec.ofNat 8 kind, attempt := BitVec.ofNat 8 (s.attemptOf rubber), seat := BitVec.ofNat 16 s.seatId,
    lcore := BitVec.ofNat 8 lcore, trick := BitVec.ofNat 24 trick, rubber := BitVec.ofNat 40 rubber,
    code := BitVec.ofNat 8 code, bundle, seatLvl, originTick := s.reg Reg.TBL_TIME, actTick := act }

/-- The replay tick of a notice whose request was detected at a tick (R253). -/
def State.replayTick (s : State) (origin : Nat) : W64 :=
  BitVec.ofNat 64 (tick5 (origin + (match s.seat.deal with | some d => d.replayLead | none => 0)))

/-- Two replay notices have the same point (R258). -/
def Notice.samePoint (a b : Notice) : Bool :=
  a.seat == b.seat && a.lcore == b.lcore && a.seatLvl == b.seatLvl && a.trick == b.trick && a.bundle == b.bundle &&
    a.code == b.code

/-- A replay notice originates, or becomes an escalation (R258) with SCHED_ESCALATE (R259). -/
def State.originateReplay (s : State) (n : Notice) : State :=
  let a := n.attempt.toNat
  let again := decide (1 ≤ a) && s.seat.replays.any fun m =>
    m.rubber == n.rubber && m.attempt.toNat == a - 1 && m.samePoint n
  let spent := decide (s.seat.limit < a + 1)
  let s := s.setSeat { s.seat with replays := s.seat.replays ++ [n] }
  if again || spent then
    let arg := n.code.toNat * 2 ^ 56 + a * 2 ^ 48 + n.lcore.toNat * 2 ^ 40 + n.trick.toNat * 2 ^ 16 +
      ofBool n.seatLvl * 2 ^ 15 + (if again then 1 else 2) * 2 ^ 13 + n.bundle.toNat
    (s.eventN 0x32 arg 2).issueNotice { n with kind := 3, actTick := 0 }
  else s.issueNotice n

/-- A seat-level request (R249): a notice of a kind with an event code. -/
def State.seatNotice (s : State) (kind code : Nat) : State :=
  if kind = NK_REPLAY then
    s.originateReplay (s.notice kind s.rubber 0xFF s.seat.trick.toNat code 0 true (s.replayTick s.now))
  else s.issueNotice (s.notice kind s.rubber 0xFF s.seat.trick.toNat code 0 true 0)

/-- The rubber on which a core's request acts: that of its detection, or the one before for a revoke with PREV = 1
(R248). -/
def requestRubber (r : Record) : Nat :=
  let u := r.tag.toNat / 2 ^ 24
  if r.code = 0x30 ∧ bit r.arg 29 = true then u - 1 else u

/-- NOTICE_ORIGINATE: the oldest request of a core that has not reached the hub does, and is flooded as a notice (R92, R95,
R249, R258), with the tick of its detection (R250). A replay request raised while a hold is pending is not acted on
separately. -/
def execNoticeOriginate (c : PCore) (s : State) : Out :=
  .next (match (s.core c).requests with
    | [] => s
    | (r, tick) :: rest =>
      let s := s.setCore c { s.core c with requests := rest }
      if !s.dealRuns then s
      else
        let u := requestRubber r
        let note := fun kind act => { s.notice kind u r.lcore.toNat (r.tag.toNat % 2 ^ 24) r.code.toNat r.bundle false act with
                                      originTick := tick }
        match r.req.toNat with
        | 1 =>
          if (match s.seat.hold with | some h => decide (1 ≤ h) | none => false) then s
          else s.originateReplay (note NK_REPLAY (s.replayTick tick.toNat))
        | 2 => s.issueNotice (note NK_HOLD 0)
        | 3 => s.issueNotice (note NK_STOP 0)
        | _ => s)

/-- NOTICE_RECEIVE: a NOTICE frame arrives on a link (R249, R251, R256, R283). A copy of a notice held already is ignored;
a seat without a running or held deal passes it on only (R390). Its frame's ACKSEQ and NAK are taken (R282). -/
def execNoticeReceive (l : LinkIx) (f : NoticeFrame) (s : State) : Out :=
  let n := f.notice
  .next (match s.frameIn l f.head with
    | none => s
    | some s =>
    if f.head.rsv || !s.linkOpen l || s.seat.seen.contains n then s
    else
      let s := (s.setSeat { s.seat with seen := s.seat.seen ++ [n] }).flood n (some l)
      if !s.dealRuns then s
      else if n.kind.toNat = NK_DEFER then s.defer n
      else if n.kind.toNat > NK_DEFER then s
      else if s.isLate n then
        let arg := n.kind.toNat * 2 ^ 56 + n.attempt.toNat * 2 ^ 48 + n.seat.toNat * 2 ^ 32 + n.rubber.toNat % 2 ^ 32
        (s.eventN 0x33 arg 3).seatNotice NK_STOP 0x33
      else s.actOn n)

/-! ### Rubbers (R78, R90, R100, R252, R254) -/

/-- A register that the deal loads: its RSV bits stay zero (R5). -/
def State.loadReg (s : State) (a : Nat) (v : W64) : State :=
  match regRow a with
  | some row => s.setReg a (row.write (s.reg a) v)
  | none => s

/-- The tables and the layout of a variant loaded for each core that a valid entry names, and its start index (R216, R220,
R260). This is no access of the host, whose writes R216 and R220 refuse while a core runs or is held: the variant's sections
are in force from its rubber's start (R260, R261). -/
def State.install (s : State) (d : Deal) (v : Nat) : State :=
  s.each s.serving fun s p =>
    let lc := s.lcoreOf p
    let s := match d.find v lc (fun b => match b with | .hand .. => true | _ => false) with
      | some _ => s.setReg (Reg.CORE_START p) (BitVec.ofNat 64 (d.startOf v lc))
      | none => s
    let s := match d.find v lc (fun b => match b with | .kvLayout .. => true | _ => false) with
      | some (.kvLayout cfg tok) => (s.loadReg (Reg.IB_KV_CFG p) cfg).loadReg (Reg.IB_KV_TOK p) tok
      | _ => s
    match d.find v lc (fun b => match b with | .actTables .. => true | _ => false) with
    | some (.actTables valid tabs) =>
      let ks := (List.range 16).filter fun k => valid / 2 ^ k % 2 == 1
      let s := (ks.zip tabs).foldl (fun (s : State) (kt : Nat × List Byte) =>
        s.each (List.range 132) fun s w =>
          s.setReg (Reg.IB_TAB p kt.1 w) (BitVec.ofNat 64 (leNat ((kt.2.drop (8 * w)).take 8)))) s
      s.setReg (Reg.IB_TAB_VALID p) (BitVec.ofNat 64 valid)
    | _ => s

/-- A variant's sections are written and it is in force (R260, R261). -/
def State.useVariant (s : State) (v : Nat) : State :=
  match s.seat.deal with
  | none => s
  | some d => (s.wr Reg.TBL_STAT 31 28 v).install d v

/-- A variant comes into force; nothing changes where it is in force already. -/
def State.toVariant (s : State) (v : Nat) : State := if s.variant = v then s else s.useVariant v

/-- The request bits of every core clear (R100). A request that has yet to reach the hub stays on its way (R249). -/
def State.clearRequests (s : State) : State :=
  s.each (allCores.filter fun p => s.rd (Reg.CORE_STAT p) 31 29 != 0) fun s p => s.wr (Reg.CORE_STAT p) 31 29 0

/-- The snapshot that a core takes (R90). -/
def RegFile.snapshot (r : RegFile) : Snapshot := { s := r.s, sPoison := r.sPoison, p := r.p, pPoison := r.pPoison }

/-- A snapshot restored: scalars, predicates and their tags; vectors stay (R90). -/
def RegFile.restore (r : RegFile) (x : Snapshot) : RegFile := { r with s := x.s, sPoison := x.sPoison, p := x.p, pPoison := x.pPoison }

/-- A core begins a rubber: CORE_START latched and a snapshot taken on the first run, both restored on a replay (R78, R90);
issue begins at the latched index. -/
def Core.begin (c : Core) (u : BitVec 40) (start : BitVec 13) (replay : Bool) : Core :=
  let c := { c with ended := false, waiting := none, readySince := none, due := [], owed := 0, ports := [], sinks := 0,
                    sinkHeld := false, drains := 0, used := [], src := c.regs }
  match (if replay then c.snaps.find? (fun x => x.1 == u) else none) with
  | some x =>
    { c with regs := c.regs.restore x.2.2, start := x.2.1, next := x.2.1.toNat,
             snaps := c.snaps.filter fun y => decide (y.1.toNat ≤ u.toNat) }
  | none =>
    { c with start, next := start.toNat, snaps := ((u, start, c.regs.snapshot) :: c.snaps).take 2 }

/-- A core of the seat at the start of a rubber: its state, its vault's latched settings (R27, R90, R398). A core that is not
ON runs nothing (R357). -/
def State.beginCore (s : State) (u : BitVec 40) (replay : Bool) (p : PCore) : State :=
  if s.rd (Reg.CORE_PWR p) 5 4 ≠ 0 then s else
  let s := (s.flushIssue p).setCoreState p CS_RUNNING
  let start := BitVec.ofNat 13 (s.rd (Reg.CORE_START p) 12 0)
  let v := (s.core p).vault
  let now := v.failingNow.filter fun l =>
    bit (s.reg (Reg.VLT_VCH_STAT p)) (16 + l / 20) && !v.due.any fun d => d / 20 == l / 20
  let fill := s.rd (Reg.VLT_FILL p) 0 0 == 1
  let c := (s.core p).begin u start replay
  let w := { c.vault with failingNow := [], due := c.vault.due ++ now, cmd := prechargeAll, rows := [], fillCmp := fill }
  s.setCore p { c with vault := w }

/-- The position at the start of a rubber (R69, R254). -/
def State.placeRubber (s : State) (u : BitVec 40) (attempt : Nat) : State :=
  let x := s.seat
  let kept := (x.attempts.filter fun y => y.1 != u && decide (u.toNat ≤ y.1.toNat + 1)) ++ [(u, attempt)]
  let s := (s.wr Reg.TBL_RUN 39 0 u.toNat).wr Reg.TBL_RUN 63 56 attempt
  s.setSeat { x with trick := 0, cycle := 0, rubberCycle := 0, began := x.cycles, attempts := kept, margin := (0xFFFFFF, 0),
                     limit := s.rd Reg.TBL_REPLAY_CFG 7 0, rx := [],
                     replays := x.replays.filter (fun n => decide (u.toNat ≤ n.rubber.toNat + 1)),
                     seen := x.seen.filter (fun n => decide (u.toNat ≤ n.rubber.toNat + 2)) }

/-- What the governor may raise once in a rubber may be raised again (R353, R369). -/
def State.clearOnce (s : State) : State :=
  s.each allTowers fun s t => s.setPower t { s.towerPower t with saturated := false, limited := (false, false) }

/-- The variant in which a rubber begins (R261): the one that VARIANT names for it; the one in which it began before, when it
begins again; else the one in force. -/
def State.chooseVariant (s : State) (u : BitVec 40) : State :=
  match s.seat.variantAt.filter (·.1 == u), s.seat.variants.find? (·.1 == u) with
  | some (_, v, cmd), _ =>
    let t := s.toVariant v
    (t.setSeat { t.seat with variantAt := none }).complete cmd 0 0 0
  | none, some x => s.toVariant x.2
  | none, none => s

/-- The variant of a rubber that begins is noted, for a later replay of it. -/
def State.noteVariant (s : State) (u : BitVec 40) : State :=
  s.setSeat { s.seat with variants := (u, s.variant) ::
    s.seat.variants.filter fun x => x.1 != u && decide (u.toNat ≤ x.1.toNat + 1) }

/-- A rubber begins (R78, R100, R241, R254): its variant, held sequence writes, the cores, the engines, PRE. -/
def State.beginRubber (s : State) (u : BitVec 40) (replay : Bool) : State :=
  let s := s.placeRubber u (if replay then (s.attemptOf u.toNat + 1) % 256 else 0)
  let s := (s.chooseVariant u).noteVariant u
  let s := (s.setTbl TS_RUNNING).setSeat { s.seat with hold := none, lowest := none, replayAt := none }
  let s := s.clearRequests
  let s := s.each s.serving fun s p => s.beginCore u replay p
  s.applySeq.clearEngines.clearOnce.formPre

/-! ### The end of a rubber (R115, R168, R180, R209, R248) -/

/-- A revoke that is due in cycle 0 of the next rubber: kind, slot, bundle, DUE. -/
structure EndRevoke where
  kind : Nat
  slot : Nat
  bundle : BitVec 13
  due : Nat
  deriving DecidableEq, Repr

/-- The revokes of a core at the end of rubber u: the bundle that has not issued, revoked already or not (kind 3, R115, with
the DUE of what the core knows of it), array work (5), vault commands (6), in-bank commands (7). -/
def Core.endRevokes (c : Core) (u : Nat) (ready : Option Waiting) : List EndRevoke :=
  let wait := match ready with
    | some w => [⟨3, 0, w.bundle, w.due⟩]
    | none => [⟨3, 0, BitVec.ofNat 13 c.next, 0⟩]
  let arrs := (List.range 6).flatMap fun a =>
    let x := c.arrays[(a + u % 6) % 6]'(Nat.mod_lt _ (by decide))
    (x.queue.map fun q => (⟨5, 2, q.bundle, 0⟩ : EndRevoke)) ++ (x.drain.toList.map fun d => ⟨5, 2, d.bundle, 0⟩)
  let late := (c.vault.bursts.filter fun b => b.pending && b.ofHand).map fun b => (⟨6, 3, b.bundle, 0⟩ : EndRevoke)
  let xs := c.xq.map fun x => match x.op with
    | .ibop .. | .kvatt _ => (⟨7, 3, x.bundle, 0⟩ : EndRevoke)
    | _ => ⟨6, 3, x.bundle, 0⟩
  (if c.ended then [] else wait) ++ arrs ++ late ++ xs

/-- What the rubber leaves for each running core of the seat. -/
def State.leftOver (s : State) : List (PCore × List EndRevoke) :=
  (s.serving.filter fun p => s.coreState p == CS_RUNNING && s.clocked p).map fun p => (p, (s.core p).endRevokes s.rubber (s.readyOf p))

/-- The revokes raised with PREV = 1 (R248). -/
def State.raiseLeft (s : State) (ls : List (PCore × List EndRevoke)) : State :=
  ls.foldl (fun (s : State) (l : PCore × List EndRevoke) =>
    s.each l.2 fun s r => s.revoke l.1 r.kind 0 0 true r.due r.slot r.bundle) s

/-- What a rubber completed without a notice latches (R272, R310). -/
def State.latchRubber (s : State) : State :=
  let m := s.seat.margin
  ((s.wr Reg.TBL_MARGIN 23 0 m.1).wr Reg.TBL_MARGIN 63 40 m.2).latchEngines

/-- Trick n ends: engine entries, the release entries used, the position (R115, R145, R309). -/
def State.closeTrick (s : State) : State :=
  let s := s.endEntries
  let s := s.each s.serving fun s p => let c := s.core p; s.setCore p { c with used := [] }
  let x := s.seat
  let done := rubberEnd s.tricks x.trick.toNat
  s.setSeat { x with trick := x.trick + 1, cycle := 0, rubberCycle := done, cycles := x.cycles + (done - x.rubberCycle) }

/-- A bundle that became ready in the trick that has ended and has not issued is a revoke of kind 3, whether or not it has
missed a deadline before (R115): all but a TBAR and the REND. -/
def State.waitOver (s : State) (p : PCore) (ready : Option Waiting) : State :=
  match ready with
  | none => s
  | some w =>
    if w.tbar.isSome || w.rend || w.trick + 1 != s.seat.trick || s.coreState p != CS_RUNNING then s
    else (s.hold p w).revoke p 3 0 0 false w.due 0 w.bundle

/-- The bundles that are ready as a trick ends, of each core of the seat. -/
def State.readyAll (s : State) : List (PCore × Option Waiting) := s.serving.map fun p => (p, s.readyOf p)

/-- TRICK_BOUNDARY: a trick that is not the rubber's last ends (R115, R251, R309, R352): a seat that has a notice holds;
otherwise waiting bundles revoke in cycle 0 of the next trick, and PRE is formed. -/
def execTrickBoundary (s : State) : Out :=
  .next (if s.running && decide (s.seat.trick.toNat + 1 < s.tricks.length) then
      let ready := s.readyAll
      let s := s.closeTrick
      if s.seat.hold.isSome then s.holdSeat else (s.each ready fun s r => s.waitOver r.1 r.2).formPre
    else s)

/-- A droop monitor is quiet (R349). -/
def State.quiet (s : State) (t : Tower) : Bool := s.rd (Reg.PWR_DROOP t) 0 0 == 1

/-- The towers whose droop monitor is quiet (R356). -/
def State.quietTowers (s : State) : BitVec 4 := BitVec.ofNat 4 ((allTowers.map fun t => if s.quiet t then 2 ^ t.val else 0).sum)

/-- The codes of every trimmed point freeze for a clock step (R32, R262). -/
def State.freezeTrims (s : State) : State := s.each allTowers fun s t => s.wr (Reg.TBL_LAYER_TRIM_STAT t) 16 16 1

/-- The seat begins a clock step at the boundary (R262, R356): held; each tower whose droop monitor is quiet begins to
change its clock; the governor holds its last fraction. -/
def State.beginStep (s : State) (p : StepPlan) : State :=
  let s := s.each s.serving fun s q =>
    let s := s.flushIssue q
    if s.coreState q = CS_RUNNING then s.setCoreState q CS_HELD else s
  let d : Division := { clock := p.clock, begun := s.quietTowers, locked := 0 }
  ((s.setSeat { s.seat with step := some { p with begun := true }, division := some d }).setTbl TS_STEPPING).freezeTrims.serveIdle

/-- The rubber after u begins, or the seat stops after the last one, or steps its clock (R241, R262, R265). -/
def State.nextRubber (s : State) (left : List (PCore × List EndRevoke)) : State :=
  let u := s.rubber
  let none3 := left.all fun l => l.2.isEmpty
  let clean := none3 && s.seat.hold.isNone
  let s := (if clean then s.latchRubber else s).latchOccupancy
  let s := s.egressBoundary u
  let nr := match s.seat.deal with | some d => d.nrubbers | none => 0
  if nr ≠ 0 && decide (nr ≤ u + 1) && clean then s.stopSeat
  else
    let s := s.each s.serving fun s p => s.setCore p (s.core p).abandon
    match s.seat.step with
    | some p =>
      if p.rubber.toNat = u + 1 && !p.replay then
        ((s.placeRubber (BitVec.ofNat 40 (u + 1)) 0).beginStep p).raiseLeft left
      else (s.beginRubber (BitVec.ofNat 40 (u + 1)) false).raiseLeft left
    | none => (s.beginRubber (BitVec.ofNat 40 (u + 1)) false).raiseLeft left

/-- RUBBER_BOUNDARY: the last trick of a rubber ends; a seat that has a notice holds, otherwise the next rubber starts
(R78, R90, R115, R196, R248, R251, R254, R272). -/
def execRubberBoundary (s : State) : Out :=
  .next (if s.running && decide (s.seat.trick.toNat + 1 = s.tricks.length) then
      let left := s.leftOver
      let s := s.closeTrick
      if s.seat.hold.isSome then s.holdSeat else s.nextRubber left
    else s)

/-- EVENT_RECORD_LEAVE: the record at the head of a core's buffer leaves on the management lane for the hub (R94). -/
def execEventRecordLeave (p : PCore) (s : State) : Out :=
  .next (match (s.core p).events with
    | [] => s
    | r :: rest =>
      let s := s.setCore p { s.core p with events := rest, sinkHeld := (s.core p).sinkHeld && rest.any fun x => x.code == 0x14 }
      { s.wr (Reg.CORE_EVT_STAT p) 4 0 rest.length with hubQueue := s.hubQueue ++ [r] })

end Sys2Proof.Machine
end

