-- ==== Sys2Proof/Machine/Deal.lean ====
section
/-! DEFINITION. The deal image (11_static_schedule.md R264 to R268, R450): parsing of a seat part and the checks that give
the misdeal reasons 1 to 10. -/

namespace Sys2Proof.Machine

/-! ### Bytes -/

/-- The number that n bytes at an offset spell. -/
def numAt (b : List Byte) (o n : Nat) : Nat := leNat ((b.drop o).take n)

/-- The n bytes at an offset are zero. -/
def zeroAt (b : List Byte) (o n : Nat) : Bool := ((b.drop o).take n).all (· == 0)

/-- A byte string cut into records of n bytes. -/
def records (n : Nat) : Nat → List Byte → List (List Byte)
  | 0, _ => []
  | k + 1, b => if b.isEmpty then [] else b.take n :: records n k (b.drop n)

/-! ### The sections (R244, R266, R302, R450) -/

/-- A directory entry (R266). -/
structure DirEntry where
  type : Nat
  variant : Nat
  seat : Nat
  lcore : Nat
  offset : Nat
  bytes : Nat
  clean : Bool
  deriving DecidableEq, Repr

/-- A parsed directory entry. -/
def dirEntry (b : List Byte) : DirEntry :=
  { type := numAt b 0 2, variant := numAt b 2 1, seat := numAt b 4 2, lcore := numAt b 6 2, offset := numAt b 8 8,
    bytes := numAt b 16 8, clean := zeroAt b 3 1 }

/-- An entry of a release table (R244). -/
def relEntry (b : List Byte) : RelEntry :=
  let w0 : W64 := BitVec.ofNat 64 (numAt b 0 8)
  let w1 : W64 := BitVec.ofNat 64 (numAt b 8 8)
  { release := fld w0 63 40, cnt := fld w0 39 26, peerSeat := fld w0 25 16, peerLcore := fld w0 15 8, link := fld w0 7 2,
    kind := fld w0 1 0, sendAt := fld w1 63 32, dtag := fld w1 31 16, hops := fld w1 15 8, fhops := fld w1 7 0 }

/-- The heads of a RELEASE section with their entries; none where a head is cut short or holds a nonzero reserved byte. -/
def relHeads : Nat → List Byte → Option (List RelHead)
  | 0, _ => some []
  | k + 1, b =>
    if b.isEmpty then some []
    else
      let n := numAt b 3 2
      if b.length < 8 + 16 * n || !zeroAt b 5 3 then none
      else
        match relHeads k (b.drop (8 + 16 * n)) with
        | none => none
        | some hs => some ({ trick := numAt b 0 3, entries := (records 16 n ((b.drop 8).take (16 * n))).map relEntry } :: hs)

/-- A descriptor of a collective entry (R302). -/
def collDesc (b : List Byte) : CollDesc :=
  { kind := numAt b 0 1, operand := numAt b 1 1, first := numAt b 2 2, nblk := numAt b 4 2, place := numAt b 6 1,
    hops := numAt b 7 1, peer := numAt b 8 2, pdtag := numAt b 10 2, sendAt := numAt b 12 4 }

/-- The entries of a COLLECTIVE section, each with whether its reserved bits are zero; none where one is cut short. -/
def collEntries : Nat → List Byte → Option (List (CollEntry × Bool))
  | 0, b => if b.isEmpty then some [] else none
  | k + 1, b =>
    let nin := numAt b 10 1
    let nout := numAt b 11 1
    let size := 32 + 16 * (nin + nout)
    if b.length < 32 ∨ b.length < size then none
    else
      let fl := numAt b 3 1
      let ds := (records 16 (nin + nout) ((b.drop 32).take (size - 32))).map collDesc
      let g := numAt b 14 2
      let e : CollEntry :=
        { dtag := numAt b 0 2, op := numAt b 2 1, engine := fl % 4, fold := fl / 4 % 2 == 1, norm := fl / 8 % 2 == 1,
          stats := fl / 16 % 2 == 1, trick := numAt b 4 3, nops := numAt b 7 1, cnt := numAt b 8 2, rows := numAt b 12 2,
          g := signed 9 g, ins := ds.take nin, outs := ds.drop nin }
      let clean := decide (fl < 32) && decide (g < 512) && zeroAt b 16 16
      match collEntries k (b.drop size) with
      | none => none
      | some es => some ((e, clean) :: es)

/-- A section's content, and the findings of reasons 5 and 6 that its reserved bytes and heads give; none under reason 1
(R267, R450). -/
def parseSection (d : Deal) (type : Nat) (b : List Byte) : Option (Body × List (Nat × Nat)) :=
  let n := b.length
  match type with
  | 1 =>
    let ls := (records 4 48 (b.drop 8)).map fun e => ({ partner := numAt e 0 2, plink := numAt e 2 1, width := numAt e 3 1 } : MapLink)
    if n ≠ 200 ∨ !zeroAt b 2 6 ∨ ls.any (fun l => decide (l.plink ≥ 64)) then none
    else some (.seatMap (numAt b 0 1) (numAt b 1 1) ls, [])
  | 2 =>
    if n ≠ 16 * d.ntricks then none
    else some (.tricks ((records 16 d.ntricks b).map fun e =>
      { len := numAt e 0 4, planned := numAt e 4 4, power := (List.range 4).map fun t => numAt e (8 + 2 * t) 2 }), [])
  | 3 =>
    if n % 8 ≠ 0 then none
    else
      let es := records 8 (n / 8) b
      some (.slots (es.map fun e => (numAt e 0 3, numAt e 3 3)),
        es.filterMap fun e => if zeroAt e 6 2 then none else some (5, numAt e 0 3))
  | 4 =>
    if n % 8 ≠ 0 then none
    else
      let es := records 8 (n / 8) b
      some (.windows (es.map fun e => { trick := numAt e 0 3, cycle := numAt e 3 3, kind := numAt e 6 1 }),
        es.filterMap fun e =>
          if zeroAt e 7 1 && (numAt e 6 1 == 1 || numAt e 6 1 == 2) then none else some (5, numAt e 0 3))
  | 5 =>
    if n < 32 ∨ n % 32 ≠ 0 then none
    else some (.hand ((records 2 16 (b.take 32)).map fun e => numAt e 0 2) (n / 32 - 1), [])
  | 6 =>
    match relHeads n b with
    | none => none
    | some hs =>
      let ts := hs.map (·.trick)
      let bad := (ts.zip ts.tail).filterMap fun p => if p.1 < p.2 then none else some (6, p.2)
      some (.release hs, bad)
  | 7 =>
    if n < 8 ∨ !zeroAt b 4 4 then none
    else match collEntries (numAt b 0 4) (b.drop 8) with
      | none => none
      | some es => some (.collective (es.map (·.1)), es.filterMap fun e => if e.2 then none else some (6, e.1.trick))
  | 8 =>
    let mask := numAt b 0 2
    let k := (List.range 16).countP fun i => mask / 2 ^ i % 2 == 1
    if n ≠ 32 + 1056 * k ∨ !zeroAt b 2 30 then none
    else some (.actTables mask (records 1056 k (b.drop 32)), [])
  | 9 => if n ≠ 16 then none else some (.kvLayout (BitVec.ofNat 64 (numAt b 0 8)) (BitVec.ofNat 64 (numAt b 8 8)), [])
  | 10 =>
    if n ≠ 8 * d.nvar then none
    else some (.variants ((records 8 d.nvar b).map fun e => (numAt e 0 2, numAt e 2 6)), [])
  | _ => none

/-- Section types marked Table, and those marked Core (R266). -/
def tableTypes : List Nat := [2, 3, 10]
def coreTypes : List Nat := [4, 5, 6, 8, 9]

/-! ### The part (R264, R265) -/

/-- The header's fields. -/
def header (b : List Byte) : Deal :=
  { seat := numAt b 12 2, xdim := numAt b 14 1, ydim := numAt b 15 1, zdim := numAt b 16 1, dummies := numAt b 17 1,
    nvar := numAt b 18 2, ntricks := numAt b 20 4, rubberCycles := numAt b 24 4, kpm := numAt b 28 2,
    clocks := numAt b 30 1, holdWin := numAt b 32 4, replayLead := numAt b 36 4, nrubbers := numAt b 40 8,
    dealId := BitVec.ofNat 64 (numAt b 48 8), seed := BitVec.ofNat 128 (numAt b 64 16), digest := (b.drop 96).take 64,
    sections := [] }

/-- PART_DIGEST holds (R264). -/
def digestOk (b : List Byte) : Bool :=
  let e := b.length - 64
  digest512 (b.take 96 ++ List.replicate 64 0 ++ (b.take e).drop 160) == b.drop e

/-- The header is right (R265, R450), apart from its digest. -/
def headerOk (b : List Byte) : Bool :=
  decide (320 ≤ b.length) && numAt b 0 8 == 0x004C414544394850 && numAt b 8 2 == 1 && numAt b 10 2 == 0xB0 &&
    numAt b 56 8 == b.length && zeroAt b 31 1 && zeroAt b 92 4 && zeroAt b 160 96 &&
    decide (1 ≤ numAt b 18 2) && decide (numAt b 18 2 ≤ 16) && decide (256 ≤ numAt b 80 8) &&
    decide (numAt b 80 8 + 24 * numAt b 88 4 ≤ b.length - 64)

/-- The directory. -/
def directory (b : List Byte) : List DirEntry :=
  (records 24 (numAt b 88 4) ((b.drop (numAt b 80 8)).take (24 * numAt b 88 4))).map dirEntry

/-- A directory entry is well formed (R264, R450), `before` being those ahead of it. -/
def dirOk (b : List Byte) (before : List DirEntry) (e : DirEntry) : Bool :=
  e.clean && decide (1 ≤ e.type) && decide (e.type ≤ 10) && decide (e.variant < numAt b 18 2) &&
    e.seat == (if tableTypes.contains e.type then 0xFFFF else numAt b 12 2) &&
    (if coreTypes.contains e.type then decide (e.lcore < 256) else e.lcore == 0xFFFF) &&
    e.offset % 32 == 0 && decide (numAt b 80 8 + 24 * numAt b 88 4 ≤ e.offset) &&
    decide (e.offset + e.bytes ≤ b.length - 64) &&
    before.all fun x => !(x.type == e.type && x.variant == e.variant && x.seat == e.seat && x.lcore == e.lcore)

/-- A parsed part: the deal, the directory entries of its sections, findings of later reasons, and the bundles of its HAND
sections by logical core, variants ascending. -/
structure Part where
  deal : Deal
  dir : List DirEntry
  late : List (Nat × Nat)
  hands : List (Nat × Nat × List Byte)
  deriving DecidableEq, Repr

/-- The sections parsed in directory order; otherwise the entry that is wrong. -/
def parseSections (b : List Byte) (d : Deal) : List DirEntry → List DirEntry → Nat → Part → Part ⊕ Nat
  | [], _, _, p => .inl p
  | e :: es, before, i, p =>
    if !dirOk b before e then .inr i
    else
      let raw := (b.drop e.offset).take e.bytes
      match parseSection d e.type raw with
      | none => .inr i
      | some (body, late) =>
        let hands := if e.type = 5 then p.hands ++ [(e.lcore, e.variant, raw.drop 32)] else p.hands
        let d' := { p.deal with sections := p.deal.sections ++ [{ variant := e.variant, lcore := e.lcore, body : Section }] }
        parseSections b d es (before ++ [e]) (i + 1) { p with deal := d', late := p.late ++ late, hands }

/-- A seat part parsed, or the detail of reason 1. -/
def parsePart (b : List Byte) : Part ⊕ Nat :=
  if !headerOk b then .inr 0
  else if !digestOk b then .inr 0
  else
    let dir := directory b
    match parseSections b (header b) dir [] 0 { deal := header b, dir, late := [], hands := [] } with
    | .inr i => .inr i
    | .inl p =>
      if [1, 2, 3, 10].all (fun t => dir.any fun e => e.type == t && e.variant == 0) then .inl p else .inr 0

/-! ### Seats and routes (R287, R291, R292) -/

/-- Coordinates of a working seat. -/
def seatX (n : Nat) : Nat := n % 8
def seatY (n : Nat) : Nat := n / 8 % 8
def seatZ (n : Nat) : Nat := n / 64

/-- A working seat of the table. -/
def Deal.working (d : Deal) (n : Nat) : Bool :=
  decide (n < 512) && decide (seatX n < d.xdim) && decide (seatY n < d.ydim) && decide (seatZ n < d.zdim)

/-- A dummy of the table. -/
def Deal.dummy (d : Deal) (n : Nat) : Bool := decide (512 ≤ n) && decide (n < 512 + d.dummies)

/-- The suit of a working seat, and its member number (R292). -/
def suitOf (n : Nat) : Nat := seatX n / 2 + 4 * (seatY n / 2) + 16 * (seatZ n / 2)
def memberOf (n : Nat) : Nat := seatX n % 2 + 2 * (seatY n % 2) + 4 * (seatZ n % 2)

/-- The hops of one dimension of size n, and whether they go in + (R287). -/
def dimHops (n a b : Nat) : Nat × Bool :=
  let δ := (b + n - a % n) % n
  if δ ≤ n - δ then (δ, true) else (n - δ, false)

/-- The first direction of the route between two working seats and its hop count (R287). -/
def routeIn (dims : Nat × Nat × Nat) (a b : Nat) : Option Nat × Nat :=
  let x := dimHops dims.1 (seatX a) (seatX b)
  let y := dimHops dims.2.1 (seatY a) (seatY b)
  let z := dimHops dims.2.2 (seatZ a) (seatZ b)
  let dir := if x.1 ≠ 0 then some (if x.2 then 0 else 1) else if y.1 ≠ 0 then some (if y.2 then 2 else 3)
    else if z.1 ≠ 0 then some (if z.2 then 4 else 5) else none
  (dir, x.1 + y.1 + z.1)

/-- Fabric hops between two logical cores (R11): two across the ring of towers, otherwise one. -/
def fabricHops (a b : Nat) : Nat := if (a / 64 + 4 - b / 64) % 4 = 2 then 2 else 1

/-- Fabric hops between a core and an engine (R301). -/
def engineHops (lc e : Nat) : Nat := if lc / 64 = e ∨ lc / 64 = (e + 1) % 4 then 1 else 2

/-- Cycles from the start of a rubber to the start of a trick. -/
def trickStart (ts : List TrickEntry) (n : Nat) : Nat := ((ts.take n).map (·.len)).sum

/-! ### The checks by reason (R267) -/

/-- Reason 2: seat, shape, dummies. -/
def State.misdeal2 (s : State) (p : Part) : List Nat :=
  let f := s.reg Reg.TBL_FORM
  let d := p.deal
  if s.rd Reg.TBL_FORM_STAT 0 0 == 1 && d.seat == s.seatId && d.xdim == fld f 31 29 + 1 && d.ydim == fld f 28 26 + 1 &&
    d.zdim == fld f 25 23 + 1 && d.dummies == min 64 (fld f 22 16) then [] else [0]

/-- Lanes of a link's width: the bits set in LNK_STAT.USED. -/
def State.linkWidth (s : State) (l : LinkIx) : Nat :=
  (List.range 4).countP fun k => bit (s.reg (Reg.LNK_STAT l)) (4 + k)

/-- Reason 3: a link that a SEAT_MAP names. -/
def State.misdeal3 (s : State) (p : Part) : List Nat :=
  p.deal.sections.flatMap fun x => match x.body with
    | .seatMap _ _ ls => (allLinks.filter fun l =>
        let e := ls.getD l.val ⟨0xFFFF, 0, 0⟩
        e.partner != 0xFFFF &&
          !(s.linkState l == LS_UP && s.rd (Reg.LNK_PARTNER l) 31 16 == e.partner && s.rd (Reg.LNK_PARTNER l) 45 40 == e.plink &&
            decide (e.width ≤ s.linkWidth l))).map (·.val)
    | _ => []

/-- Reason 4: trick lengths, kitties, RUBBER_CYCLES (R242, R245). -/
def misdeal4 (p : Part) : List Nat :=
  let d := p.deal
  let tables := d.sections.filterMap fun x => match x.body with | .tricks es => some es | _ => none
  let bad := tables.flatMap fun es => (es.mapIdx fun i e => (e, i)).filterMap fun x =>
    if x.1.len % 4 == 0 && decide (64 ≤ x.1.len) && decide (x.1.len ≤ 16777212) &&
      decide (ceilDiv (x.1.len * d.kpm) 1000 + x.1.planned ≤ x.1.len) then none else some x.2
  let sums := tables.map fun es => (es.map (·.len)).sum
  (if d.kpm < 30 ∨ d.ntricks > 2 ^ 24 then [0] else []) ++ bad ++
    (if sums.any (fun n => decide (n ≥ 2 ^ 32)) ∨ ((d.tricksOf 0).map (·.len)).sum ≠ d.rubberCycles then [0] else [])

/-- The slot starts of a variant. -/
def Deal.slotsOf (d : Deal) (v : Nat) : List (Nat × Nat) :=
  match d.find v 0xFFFF fun b => match b with | .slots _ => true | _ => false with
  | some (.slots ss) => ss
  | _ => []

/-- The variants of a deal. -/
def Deal.variants (d : Deal) : List Nat := List.range d.nvar

/-- Rubber cycles put in ascending order, each with its trick. -/
def insertAt (x : Nat × Nat) : List (Nat × Nat) → List (Nat × Nat)
  | [] => [x]
  | y :: ys => if x.1 < y.1 then x :: y :: ys else y :: insertAt x ys
def sortAt (xs : List (Nat × Nat)) : List (Nat × Nat) := xs.foldl (fun l x => insertAt x l) []

/-- The gaps between consecutive starts, the last one across the rubber boundary, each with the trick of its first. -/
def gapsOf (xs : List (Nat × Nat)) (total : Nat) : List (Nat × Nat) :=
  match xs with
  | [] => []
  | x :: rest => (xs.zip (rest ++ [(x.1 + total, x.2)])).map fun p => (p.2.1 - p.1.1, p.1.2)

/-- A start in a trick's own cycles. -/
def placed (ts : List TrickEntry) (t c : Nat) : Bool := match ts[t]? with | some e => decide (c < e.len) | none => false

/-- Reason 5: slots and windows (R183, R448): no slot, starts less than tSLOT (240) or more than tREFI (4,680) apart, a
window that overlaps. -/
def misdeal5 (p : Part) : List Nat :=
  let d := p.deal
  ((p.late.filter fun x => x.1 == 5).map (·.2)) ++ d.variants.flatMap fun v =>
    let ts := d.tricksOf v
    let total := (ts.map (·.len)).sum
    let ss := d.slotsOf v
    let out := (ss.filter fun x => !placed ts x.1 x.2).map (·.1)
    let slots := sortAt (ss.map fun x => (trickStart ts x.1 + x.2, x.1))
    let gaps := gapsOf slots total
    let cores := ((d.sections.filterMap fun x => match x.body with | .windows _ => some x.lcore | _ => none)).eraseDups
    out ++ (if ss.isEmpty then [0] else []) ++ ((gaps.filter fun g => decide (g.1 < 240 ∨ 4680 < g.1)).map (·.2)) ++
      cores.flatMap fun lc =>
        let ws := d.windowsOf v lc
        ((ws.filter fun w => !placed ts w.trick w.cycle).map (·.trick)) ++
          ((gapsOf (sortAt (slots ++ ws.map fun w => (trickStart ts w.trick + w.cycle, w.trick))) total).filter
            fun g => decide (g.1 < 240)).map (·.2)

/-! ### Release entries (R243, R244, R286, R289, R449) -/

/-- A release entry with its logical core and trick. -/
structure RelAt where
  lcore : Nat
  trick : Nat
  e : RelEntry
  deriving DecidableEq, Repr

/-- Every release entry of a variant. -/
def Deal.entries (d : Deal) (v : Nat) : List RelAt :=
  ((d.sections.filterMap fun x => match x.body with | .release _ => some x.lcore | _ => none).eraseDups).flatMap fun lc =>
    (d.releaseOf v lc).flatMap fun h => h.entries.map fun e => ⟨lc, h.trick, e⟩

/-- The rubber cycle of an entry's release. -/
def RelAt.cycle (ts : List TrickEntry) (r : RelAt) : Nat := trickStart ts r.trick + r.e.release

/-- A send and a receive inside the module belong together (R449). -/
def RelAt.pairs (ts : List TrickEntry) (snd rcv : RelAt) : Bool :=
  snd.e.kind == 0 && rcv.e.kind == 1 && rcv.e.link == 63 && snd.e.link == 63 && snd.lcore == rcv.e.peerLcore &&
    snd.e.peerLcore == rcv.lcore && snd.e.dtag == rcv.e.dtag && snd.e.cnt == rcv.e.cnt && snd.e.fhops == rcv.e.fhops &&
    snd.cycle ts == rcv.e.sendAt

/-- The route of a send between seats (R289). -/
def Deal.sendRoute (d : Deal) (e : RelEntry) : Bool :=
  if d.working d.seat && d.working e.peerSeat then
    let r := routeIn (d.xdim, d.ydim, d.zdim) d.seat e.peerSeat
    decide (e.link < 42) && r.1 == some (e.link % 6) && e.hops == r.2
  else if d.working d.seat then
    e.peerSeat == 512 + suitOf d.seat && decide (42 ≤ e.link) && e.hops == 1
  else d.seat == 512 + suitOf e.peerSeat && e.link / 6 == memberOf e.peerSeat && decide (e.link % 6 < 6) && e.hops == 1

/-- A KIND 0 or 1 entry is well formed and meets R243, R289 and R449. -/
def Deal.deliveryOk (d : Deal) (ts : List TrickEntry) (all : List RelAt) (r : RelAt) : Bool :=
  let e := r.e
  if e.link = 63 then
    e.peerSeat == d.seat && e.hops == 0 && e.fhops == fabricHops r.lcore e.peerLcore &&
      (if e.kind = 0 then all.any fun x => r.pairs ts x
       else all.any (fun x => x.pairs ts r) && decide (e.sendAt + 48 * e.fhops ≤ r.cycle ts))
  else
    decide (e.link < 48) && e.fhops == 0 && decide (1 ≤ e.hops) && e.peerSeat != d.seat &&
      (d.working e.peerSeat || d.dummy e.peerSeat) &&
      (if e.kind = 0 then d.sendRoute e else decide (e.sendAt + 768 * e.hops ≤ r.cycle ts))

/-- A KIND 2 or 3 entry names an engine entry whose descriptor matches it (R244, R303). -/
def collMatch (d : Deal) (es : List CollEntry) (r : RelAt) : Bool :=
  r.e.link == 63 && r.e.peerSeat == d.seat && r.e.hops == 0 && r.e.sendAt == 0 && es.any fun c =>
    c.dtag == r.e.dtag && c.trick == r.trick &&
      (if r.e.kind = 2 then c.ins else c.outs).any fun x =>
        x.kind == (if r.e.kind = 2 then 0 else 4) && x.place == r.lcore && x.nblk == r.e.cnt && x.hops == r.e.fhops

/-- An entry of a release table is in order. -/
def Deal.entryOk (d : Deal) (ts : List TrickEntry) (all : List RelAt) (es : List CollEntry) (r : RelAt) : Bool :=
  placed ts r.trick r.e.release && decide (1 ≤ r.e.cnt) && (r.e.kind == 1 || r.e.sendAt == 0) &&
    (if r.e.kind < 2 then d.deliveryOk ts all r else collMatch d es r)

/-- Tricks in which two receive entries of the seat carry one DTAG (R286). -/
def doubleTags : List RelAt → List Nat
  | [] => []
  | r :: rs =>
    (if r.e.kind == 1 && rs.any (fun x => x.e.kind == 1 && x.trick == r.trick && x.e.dtag == r.e.dtag) then [r.trick] else [])
      ++ doubleTags rs

/-! ### Engine programs (R302, R303, R308) -/

/-- The descriptors cover blocks 0 to n - 1, each once. -/
def tiles (ds : List CollDesc) (n : Nat) : Bool :=
  let xs := sortAt (ds.map fun x => (x.first, x.nblk))
  (xs.foldl (fun (a : Nat × Bool) x => (a.1 + x.2, a.2 && x.1 == a.1 && decide (1 ≤ x.2))) (0, true)) == (n, true)

/-- Fields of a descriptor that its kind leaves zero are zero, and the others are in range. -/
def CollDesc.ok (x : CollDesc) (c : CollEntry) (inp : Bool) : Bool :=
  (if inp then decide (x.operand < c.nops) else x.operand == 0) && decide (1 ≤ x.nblk) && decide (x.first + x.nblk ≤ c.cnt) &&
    (match x.kind, inp with
     | 0, true | 4, false => x.peer == 0 && x.pdtag == 0 && x.sendAt == 0 && x.hops == engineHops x.place c.engine
     | 1, true => decide (x.place < 48) && x.place / 12 == c.engine && decide (1 ≤ x.hops)
     | 5, false => decide (x.place < 48) && x.place / 12 == c.engine && x.hops == 0
     | 2, true | 6, false => x.place == 0 && x.hops == 0 && x.peer == 0 && x.sendAt == 0
     | _, _ => false)

/-- The operand count and the output ranges fit OP (R303 condition 5). -/
def CollEntry.fits (c : CollEntry) : Bool :=
  let whole := c.outs.all fun x => x.first == 0 && x.nblk == c.cnt
  match c.op with
  | 0 => decide (1 ≤ c.nops ∧ c.nops ≤ 32) && whole
  | 1 => (if c.fold then decide (1 ≤ c.nops ∧ c.nops ≤ 32) else c.nops == 1) && whole
  | 2 => decide (2 ≤ c.nops ∧ c.nops ≤ 32) && tiles c.outs c.cnt
  | 3 => c.nops == 1 && c.ins.length == 1 && whole
  | 4 => c.nops == 1
  | _ => false

/-- What R302 asks of an entry's own fields. -/
def CollEntry.fieldsOk (c : CollEntry) (n : Nat) : Bool :=
  decide (c.trick < n) && decide (1 ≤ c.cnt ∧ c.cnt ≤ 8192) && !c.ins.isEmpty && !c.outs.isEmpty &&
    (c.op == 1 || !c.fold) && (c.fold || !c.norm) && (c.op == 0 || c.op == 2 || !c.stats) && (c.stats || c.g == 0) &&
    (if c.fold then decide (1 ≤ c.rows) && c.cnt == ceilDiv (544 * c.rows) 256 else c.rows == 0)

/-- Each chain descriptor of an entry is named back by its match in another entry of the engine in the trick (R303 condition
3). -/
def chainOk (es : List CollEntry) (c : CollEntry) (out : Bool) : Bool :=
  let mine := if out then c.outs else c.ins
  (List.range mine.length).all fun i =>
    match mine[i]? with
    | none => true
    | some x =>
      x.kind != (if out then 6 else 2) ||
        es.any fun y => y.dtag == x.pdtag && y.engine == c.engine && y.trick == c.trick &&
          ((chainMatch mine i (if out then y.ins else y.outs) c.dtag).map (·.nblk)) == some x.nblk

/-- The release entry that matches descriptor i of an entry's puts or gets (R303 condition 4): of those with its core, trick,
entry and length, the one of the same rank as the descriptor has among its like (log entry 73). -/
def releaseOf (all : List RelAt) (c : CollEntry) (ds : List CollDesc) (i : Nat) : Option RelEntry :=
  (ds[i]?).bind fun x =>
    ((all.filter fun r => r.e.kind == x.kind / 4 + 2 && r.lcore == x.place && r.trick == c.trick && r.e.dtag == c.dtag &&
      r.e.cnt == x.nblk)[descRank ds i]?).map (·.e)

/-- The ready cycle of each entry, computed in rounds so that chains settle; none for an entry on a cycle (R308). -/
def readyRound (all : List RelAt) (es : List CollEntry) (known : List (Nat × Nat)) : List (Nat × Nat) :=
  es.filterMap fun c =>
    let avail := c.ins.mapIdx fun i x =>
      match x.kind with
      | 0 => (releaseOf all c c.ins i).map fun e => Int.ofNat (e.release + 48 * x.hops)
      | 1 => some (Int.ofNat (x.sendAt + 768 * x.hops) - 120)
      | _ => (known.find? fun k => k.1 == x.pdtag).map fun k => Int.ofNat k.2
    if avail.all Option.isSome then
      let m := avail.foldl (fun m x => max m (x.getD 0)) 0
      some (c.dtag, m.toNat + 24 + (if c.fold then 2 * c.rows * (c.nops - 1) else 0))
    else none

/-- The ready cycles after n rounds. -/
def readyCycles (all : List RelAt) (es : List CollEntry) : Nat → List (Nat × Nat)
  | 0 => []
  | n + 1 => readyRound all es (readyCycles all es n)

/-- The outputs of an entry keep R308, and its local gets have their release entries (R303 condition 4). -/
def outputsOk (d : Deal) (all : List RelAt) (c : CollEntry) (r : Nat) : Bool :=
  (c.outs.mapIdx fun i x =>
    match x.kind with
    | 5 => decide (r ≤ x.sendAt + 96)
    | 4 => (match releaseOf all c c.outs i with
      | some e => e.peerSeat == d.seat && e.link == 63 && e.fhops == x.hops && decide (r + 48 * x.hops ≤ e.release)
      | none => false)
    | _ => true).all id

/-- Local puts have their release entries (R303 condition 4). -/
def putsOk (d : Deal) (all : List RelAt) (c : CollEntry) : Bool :=
  (c.ins.mapIdx fun i x => x.kind != 0 || (match releaseOf all c c.ins i with
    | some e => e.peerSeat == d.seat && e.link == 63 && e.fhops == x.hops
    | none => false)).all id

/-- The tricks of malformed engine entries. -/
def badColl (d : Deal) (ts : List TrickEntry) (all : List RelAt) (es : List CollEntry) : List Nat :=
  let ready := readyCycles all es es.length
  let bad := es.filter fun c =>
    !(c.fieldsOk ts.length && c.fits && c.ins.all (·.ok c true) && c.outs.all (·.ok c false) &&
      (List.range c.nops).all (fun k => tiles (c.ins.filter fun x => x.operand == k) c.cnt) &&
      chainOk es c false && chainOk es c true &&
      putsOk d all c && (es.countP fun y => y.dtag == c.dtag) == 1 &&
      (match ready.find? fun k => k.1 == c.dtag with | some k => outputsOk d all c k.2 | none => false))
  let full := (List.range 4).flatMap fun e => (es.filter fun c => c.engine == e &&
    decide (16384 < ((es.filter fun y => y.engine == e && y.trick == c.trick).map (·.cnt)).sum)).map (·.trick)
  bad.map (·.trick) ++ full

/-- Reason 6: release tables and engine programs. -/
def misdeal6 (p : Part) : List Nat :=
  let d := p.deal
  ((p.late.filter fun x => x.1 == 6).map (·.2)) ++
    (d.sections.flatMap fun x => match x.body with
      | .release hs => (hs.filter fun h => decide (4096 < h.entries.length)).map (·.trick)
      | _ => []) ++
    d.variants.flatMap fun v =>
      let ts := d.tricksOf v
      let all := d.entries v
      let es := d.collOf v
      ((all.filter fun r => !d.entryOk ts all es r).map (·.trick)) ++ doubleTags all ++ badColl d ts all es

/-! ### Reasons 7 to 10 -/

/-- Reason 7: HOLD_WIN of the trained table (R249), REPLAY_LEAD at the slowest clock permitted (R255). -/
def State.misdeal7 (s : State) (p : Part) : List Nat :=
  let d := p.deal
  let lmax := (d.sections.flatMap fun x => match x.body with | .tricks es => es.map (·.len) | _ => []).foldl max 0
  let n := lmax + d.holdWin
  let ticks := if d.clocks / 4 % 2 = 1 then ceilDiv n 16 else if d.clocks / 2 % 2 = 1 then ceilDiv (10 * n) 192 else ceilDiv n 24
  if d.holdWin < 384 * s.rd Reg.TBL_STAT 39 34 + 96 ∨ d.replayLead < ticks + 240 then [0] else []

/-- Bundles of a logical core's HAND sections together (R260). -/
def Part.bundles (p : Part) (lc : Nat) : Nat :=
  (p.deal.sections.filterMap fun x => match x.body with
    | .hand _ n => if x.lcore = lc then some n else none
    | _ => none).sum

/-- Reason 8: map entries, hand sizes, start indices. -/
def State.misdeal8 (s : State) (p : Part) : List Nat :=
  ((p.dir.zip p.deal.sections).mapIdx fun i x => (i, x)).filterMap fun y =>
    let e := y.2.1
    let unmapped := coreTypes.contains e.type && (s.physOf e.lcore).isNone
    let hand := match y.2.2.body with
      | .hand ss _ => decide (8192 < p.bundles e.lcore) ||
          (List.range p.deal.nvar).any fun v => decide (p.bundles e.lcore ≤ ss.getD v 0)
      | _ => false
    if unmapped || hand then some y.1 else none

/-- Reason 9: the clock in effect. -/
def State.misdeal9 (s : State) (p : Part) : List Nat := if p.deal.clocks / 2 ^ s.clock % 2 = 1 then [] else [0]

/-- Reason 10: annotated power against the budgets in effect. -/
def State.misdeal10 (s : State) (p : Part) : List Nat :=
  p.deal.variants.flatMap fun v => ((p.deal.tricksOf v).mapIdx fun i e => (i, e)).filterMap fun x =>
    if allTowers.any fun t => decide (s.rd (Reg.PWR_BUDGET t) 47 32 < x.2.power.getD t.val 0) then some x.1 else none

/-- The first finding of each reason, from the lowest (R267). -/
def firstOf : List (Nat × List Nat) → Option (Nat × Nat)
  | [] => none
  | (r, x :: _) :: _ => some (r, x)
  | (_, []) :: rest => firstOf rest

/-- The first reason that applies to a parsed part, with its detail. -/
def State.misdealOf (s : State) (p : Part) : Option (Nat × Nat) :=
  firstOf [(2, s.misdeal2 p), (3, s.misdeal3 p), (4, misdeal4 p), (5, misdeal5 p), (6, misdeal6 p), (7, s.misdeal7 p),
           (8, s.misdeal8 p), (9, s.misdeal9 p), (10, s.misdeal10 p)]

end Sys2Proof.Machine
end

