-- ==== Sys2Proof/Machine/Table.lean ====
section
/-! DEFINITION. The table commands (11 R270, R271), the load of a deal (R264 to R268, R359), and the ticks that they name
(R241, R254, R262, R263). -/

namespace Sys2Proof.Machine

/-! ### Judging a command (R322) -/

/-- A command of the host as its completion will name it. -/
def State.ref (s : State) (opcode : Nat) (gen : BitVec 4) (id : BitVec 16) : CmdRef :=
  { opcode := BitVec.ofNat 8 opcode, gen, id, cons := BitVec.ofNat 32 (s.rd Reg.HST_SUBQ_CONS 31 0) }

/-- A command with the same identifier has not completed (R322 check 3). -/
def State.isOpen (s : State) (c : CmdRef) : Bool := s.host.opened.any fun x => x.id == c.id

/-- Checks 2 to 5 of R322: arguments in range, identifier free, state conditions; an accepted command is open until it
completes. -/
def State.judge (s : State) (c : CmdRef) (range can : Bool) (eff : State → State) : State :=
  if !range then s.respond c 3 0 0
  else if s.isOpen c || !can then s.reject c
  else eff { s with host := { s.host with opened := s.host.opened ++ [c] } }

/-- A command that a later one, a stop or an unload overtakes completes with STATE (log entry 60). -/
def State.overtake (s : State) (c : Option CmdRef) : State :=
  match c with
  | some c => s.complete c 1 s.tblState 0
  | none => s

/-! ### LOAD (R264 to R268, R297, R359) -/

/-- Every UP link's partner is recorded, with its certificate digest, and every STANDBY link comes UP; the new deal runs on
them from its start (R297). -/
def State.recordPartners (s : State) : State :=
  s.each allLinks fun s l =>
    if s.linkState l = LS_UP ∨ s.linkState l = LS_STANDBY then
      let x := s.link l
      let x := { x with recorded := x.hello.map fun h => (h.seat, h.link, h.certDigest), admission := none }
      (s.setLink l x).wr (Reg.LNK_STAT l) 2 0 LS_UP
    else s

/-- The deal in the seat is discarded (R270): a START that waits is overtaken, a core that faulted is STOPPED. -/
def State.discardDeal (s : State) : State :=
  let earlier := s.seat.startAt.map (·.2)
  let s := s.setSeat { s.seat with deal := none, loading := none, startAt := none, replayAt := none, variantAt := none, step := none,
                                   hold := none, lowest := none, replays := [], attempts := [], variants := [] }
  let s := (s.setReg Reg.TBL_DEAL 0).overtake earlier
  s.each allCores fun s p =>
    if s.coreState p = CS_FAULTED then s.setCoreState p CS_STOPPED else s

/-- A misdeal (R267, R268): SCHED_MISDEAL and TBL_MISDEAL. -/
def State.misdeal (s : State) (reason detail : Nat) : State :=
  let arg := reason * 2 ^ 56 + detail % 2 ^ 32
  (s.setReg Reg.TBL_MISDEAL (BitVec.ofNat 64 arg)).eventN 0x31 arg 0

/-- The bundles for each logical core's hand store: its HAND sections in ascending variant order (R260). -/
def Part.stores (p : Part) : List (Nat × List Byte) :=
  ((p.hands.map (·.1)).eraseDups).map fun lc =>
    (lc, (List.range 16).flatMap fun v => (p.hands.filter fun h => h.1 == lc && h.2.1 == v).flatMap (·.2.2))

/-- A core is ON and neither enters nor leaves a state (R357, R359). -/
def State.isOn (s : State) (p : PCore) : Bool := s.rd (Reg.CORE_PWR p) 5 4 == 0 && s.rd (Reg.CORE_PWR p) 8 8 == 0

/-- A request for ON (R357, R358): an exit begins from RET or OFF. -/
def State.wantOn (s : State) (p : PCore) : State :=
  let s := s.wr (Reg.CORE_PWR p) 1 0 0
  if s.rd (Reg.CORE_PWR p) 5 4 = 0 ∧ s.rd (Reg.CORE_PWR p) 8 8 = 0 then s else s.wr (Reg.CORE_PWR p) 8 8 1

/-- The load ends once every core that a valid map entry names is ON (R270, R359): hands, seeds, tables, layouts. -/
def State.finishLoad (s : State) : State :=
  match s.seat.loading with
  | none => s
  | some x =>
    if !s.serving.all s.isOn then s
    else
      let s := s.each x.hands fun s h =>
        match s.physOf h.1 with
        | some p => s.setCore p { s.core p with hand := (s.core p).hand.store 0 h.2 }
        | none => s
      let s := s.each allCores fun s p =>
        (s.setReg (Reg.CORE_SR_SEED0 p) (x.deal.seed.setWidth 64)).setReg (Reg.CORE_SR_SEED1 p) ((x.deal.seed >>> 64).setWidth 64)
      let s := (s.setSeat { s.seat with deal := some x.deal, loading := none }).useVariant 0
      ((s.setReg Reg.TBL_DEAL x.deal.dealId).setTbl TS_LOADED).complete x.cmd 0 0 0

/-- Keep-warm stops as a LOAD begins or a START is accepted (R372). -/
def State.stopWarm (s : State) : State := s.each allTowers fun s t => s.wr (Reg.THM_STAT t) 5 5 0

/-- A LOAD begins: the deal before it is gone, request bits clear, keep-warm stops, test modes end (R100, R193, R270,
R372). -/
def State.beginLoad (s : State) : State :=
  (s.discardDeal.clearRequests.stopWarm.setTbl TS_LOADING).each allCores fun s p => s.wr (Reg.VLT_TEST_CTL p) 2 2 0

/-- A read of host memory (R317). -/
def State.fetched (s : State) (src : Option (Nat × Nat)) : State :=
  match src with
  | some x => s.send (.hostFetch x.1 x.2)
  | none => s

/-- LOAD accepted (R270): the part that the fetch returned, or none where a read of host memory failed (R325). -/
def State.loadPart (s : State) (c : CmdRef) (image : Option (List Byte)) : State :=
  let s := s.beginLoad
  match image with
  | none => (s.setTbl TS_EMPTY).complete c 5 0 0
  | some b =>
    let s := s.recordPartners
    let bad : Part ⊕ (Nat × Nat) := match parsePart b with
      | .inr i => .inr (1, i)
      | .inl p => match s.misdealOf p with | some x => .inr x | none => .inl p
    match bad with
    | .inr x => ((s.misdeal x.1 x.2).setTbl TS_EMPTY).complete c 4 x.1 0
    | .inl p =>
      let s := s.setSeat { s.seat with loading := some { cmd := c, deal := p.deal, hands := p.stores } }
      (s.each s.serving State.wantOn).finishLoad

/-- The seat is in one of these states. -/
def State.inState (s : State) (l : List Nat) : Bool := l.contains s.tblState

/-- LOAD (R270), with the host address and length from which it is read where a descriptor gives them (R321). -/
def State.cmdLoad (s : State) (c : CmdRef) (src : Option (Nat × Nat)) (image : Option (List Byte)) : State :=
  s.judge c true (s.inState [TS_EMPTY, TS_LOADED, TS_STOPPED]) fun s => (s.fetched src).loadPart c image

/-- LOAD. -/
def execLoad (gen : BitVec 4) (id : BitVec 16) (image : Option (List Byte)) (s : State) : Out :=
  .next (s.cmdLoad (s.ref 1 gen id) none image)

/-! ### The other commands (R270, R271) -/

/-- A named tick is a multiple of 5 and at least 240 ticks ahead (R271). -/
def State.tickOk (s : State) (t : W64) : Bool := t.toNat % 5 == 0 && decide (s.now + 240 ≤ t.toNat)

/-- A variant is in the deal. -/
def State.variantOk (s : State) (v : Nat) : Bool := match s.seat.deal with | some d => decide (v < d.nvar) | none => false

/-- A clock is in the deal. -/
def State.clockOk (s : State) (k : Nat) : Bool := match s.seat.deal with | some d => d.clocks / 2 ^ k % 2 == 1 | none => false

/-- START (R270): rubber 0 of variant 0 at a tick. -/
def State.cmdStart (s : State) (c : CmdRef) (t : W64) : State :=
  s.judge c true (s.inState [TS_LOADED, TS_STOPPED] && s.tickOk t) fun s =>
    let earlier := s.seat.startAt.map (·.2)
    ((s.setSeat { s.seat with startAt := some (t, c) }).overtake earlier).stopWarm

/-- START. -/
def execStart (gen : BitVec 4) (id : BitVec 16) (tick : W64) (s : State) : Out := .next (s.cmdStart (s.ref 2 gen id) tick)

/-- STOP (R270): a stop notice, whose CODE is 0 (log entry 61). -/
def State.cmdStop (s : State) (c : CmdRef) : State :=
  s.judge c true (s.inState [TS_RUNNING, TS_HELD, TS_STEPPING]) fun s =>
    (s.setSeat { s.seat with stops := s.seat.stops ++ [c] }).seatNotice NK_STOP 0

/-- STOP. -/
def execStop (gen : BitVec 4) (id : BitVec 16) (s : State) : Out := .next (s.cmdStop (s.ref 3 gen id))

/-- REPLAY (R270): the held rubber at a tick, in a variant. -/
def State.cmdReplay (s : State) (c : CmdRef) (t : W64) (v : Nat) : State :=
  s.judge c true (s.inState [TS_HELD] && s.tickOk t && s.variantOk v) fun s =>
    let earlier := match s.seat.replayAt with | some (_, some x) => some x.2 | _ => none
    (s.setSeat { s.seat with replayAt := some (t, some (v, c)) }).overtake earlier

/-- REPLAY. -/
def execReplay (gen : BitVec 4) (id : BitVec 16) (tick : W64) (v : Byte) (s : State) : Out :=
  .next (s.cmdReplay (s.ref 4 gen id) tick v.toNat)

/-- VARIANT (R270, R271): in force at the named rubber. -/
def State.cmdVariant (s : State) (c : CmdRef) (u v : Nat) : State :=
  s.judge c (decide (u < 2 ^ 40)) (s.inState [TS_RUNNING] && decide (2400 ≤ s.cyclesTo u) && s.variantOk v) fun s =>
    let earlier := s.seat.variantAt.map (·.2.2)
    (s.setSeat { s.seat with variantAt := some (BitVec.ofNat 40 u, v, c) }).overtake earlier

/-- VARIANT. -/
def execVariant (gen : BitVec 4) (id : BitVec 16) (rubber : W64) (v : Byte) (s : State) : Out :=
  .next (s.cmdVariant (s.ref 5 gen id) rubber.toNat v.toNat)

/-- STEP (R262, R270, R271): at the named rubber's boundary, or at once from HELD. -/
def State.cmdStep (s : State) (c : CmdRef) (u clock : Nat) (t : W64) : State :=
  let held := s.inState [TS_HELD]
  s.judge c (decide (u < 2 ^ 40) && decide (clock ≤ 2))
    ((held || (s.inState [TS_RUNNING] && decide (2400 ≤ s.cyclesTo u))) && s.tickOk t && s.clockOk clock) fun s =>
      let plan : StepPlan := { rubber := BitVec.ofNat 40 u, clock, resume := t, cmd := c, begun := false, replay := held }
      let earlier := s.seat.step.map (·.cmd)
      if held then
        let late := match s.seat.replayAt with | some (_, some x) => some x.2 | _ => none
        let s := s.setSeat { s.seat with replayAt := none }
        ((s.beginStep plan).overtake earlier).overtake late
      else (s.setSeat { s.seat with step := some plan }).overtake earlier

/-- STEP. -/
def execStepClock (gen : BitVec 4) (id : BitVec 16) (rubber : W64) (clock : Byte) (resume : W64) (s : State) : Out :=
  .next (s.cmdStep (s.ref 6 gen id) rubber.toNat clock.toNat resume)

/-- UNLOAD (R270). -/
def State.cmdUnload (s : State) (c : CmdRef) : State :=
  s.judge c true (s.inState [TS_LOADED, TS_STOPPED]) fun s => (s.discardDeal.setTbl TS_EMPTY).complete c 0 0 0

/-- UNLOAD. -/
def execUnload (gen : BitVec 4) (id : BitVec 16) (s : State) : Out := .next (s.cmdUnload (s.ref 7 gen id))

/-! ### The named ticks -/

/-- Reason 11 (R267): a trained partner holds another deal, or none. -/
def State.partnerDiffers (s : State) (d : Deal) : Option LinkIx :=
  allLinks.find? fun l => s.linkState l == LS_UP &&
    (match (s.link l).hello with | some h => h.dealId != d.dealId || h.dealDigest != d.digest | none => true)

/-- START_TICK: the tick named by START comes (R241, R267 reason 11, R268, R270). -/
def execStartTick (s : State) : Out :=
  .next (match s.seat.startAt, s.seat.deal with
    | some (t, c), some d =>
      if s.inState [TS_LOADED, TS_STOPPED] then
        let s := (s.atTick t).setSeat { (s.atTick t).seat with startAt := none, hold := none, lowest := none, attempts := [], replays := [], variants := [] }
        match s.partnerDiffers d with
        | some l =>
          let s := s.misdeal 11 l.val
          let n := s.notice NK_STOP 0 0xFF 0 0x31 0 true 0
          ((s.issueNotice n).recordNotice n |>.setTbl TS_STOPPED).complete c 4 11 0
        | none => ((s.toVariant 0).beginRubber 0 false).complete c 0 0 0
      else s
    | _, _ => s)

/-- A replay in another variant begins at that variant's start index: the value latched for the rubber is its own (R260,
R261, log entry 62). -/
def State.restartAt (s : State) (u : BitVec 40) : State :=
  s.each s.serving fun s p =>
    let c := s.core p
    let start := BitVec.ofNat 13 (s.rd (Reg.CORE_START p) 12 0)
    s.setCore p { c with snaps := c.snaps.map fun x => if x.1 = u then (x.1, start, x.2.2) else x }

/-- The held rubber is replayed in a variant (R254, R261): from here on that variant stands, whatever rubbers begun before
had. -/
def State.replayIn (s : State) (u : BitVec 40) (v : Nat) : State :=
  let t := if s.variant = v then s else s.useVariant v
  let was := (s.seat.variants.find? fun x => x.1 == u).map (·.2)
  let t := t.setSeat { t.seat with variants := [(u, v)] }
  (if was = some v then t else t.restartAt u).beginRubber u true

/-- A step that had begun completes when the held rubber is replayed: its clock change has been made (R378). A step for a
later rubber still waits for it (R262). -/
def State.endStep (s : State) : State :=
  match s.seat.step with
  | some p => if p.begun then (s.setSeat { s.seat with step := none }).complete p.cmd 0 0 0 else s
  | none => s

/-- REPLAY_TICK: the replay tick of an episode, or the one that REPLAY names, comes on a held seat (R253, R254, R257) whose
clocks are not being changed (R378); while a sparing is in progress a REPLAY becomes a stop notice for the held rubber
(R394). -/
def execReplayTick (s : State) : Out :=
  .next (if s.inState [TS_HELD] && s.seat.division.isNone then
      let u := s.seat.lowest.getD (BitVec.ofNat 40 s.rubber)
      match s.seat.replayAt with
      | none => s
      | some (t, none) => if s.seat.hold = some 0 then ((s.atTick t).beginRubber u true).endStep else s
      | some (t, some (v, c)) =>
        if s.boot.sparing.isSome then
          let s := s.atTick t
          s.issueNotice (s.notice NK_STOP u.toNat 0xFF s.seat.trick.toNat 0 0 true 0)
        else (((s.atTick t).replayIn u v).endStep).complete c 0 0 0
    else s)

/-- The seat reports lock: every tower has completed its clock change, every monitor is quiet (R356), no sparing is in
progress (R394). -/
def State.locked (s : State) : Bool :=
  match s.seat.step with
  | some p => p.begun && s.seat.division.isNone && allTowers.all s.quiet && s.boot.sparing.isNone
  | none => false

/-- RESUME_TICK: after a clock step the rubber begins at the resume tick (R262, R270); a seat that a hold reached meanwhile
stays HELD (R378). -/
def execResumeTick (s : State) : Out :=
  .next (match s.seat.step with
    | some p =>
      if s.inState [TS_HELD] && s.locked then
        ((s.atTick p.resume).setSeat { (s.atTick p.resume).seat with step := none }).complete p.cmd 0 0 0
      else if s.inState [TS_STEPPING] && s.locked then
        let u := if p.replay then s.seat.lowest.getD (BitVec.ofNat 40 s.rubber) else p.rubber
        let s := s.atTick p.resume
        (((s.setSeat { s.seat with step := none }).beginRubber u p.replay).complete p.cmd 0 0 0)
      else s
    | none => s)

/-- STEP_DEFERRAL: 100 ticks before the resume tick the seat has not reported lock (R263, R356): PWR_STEP_DEFER and a
notice whose ACT_TICK is the expected lock tick plus 500, rounded up to a multiple of 5. -/
def execStepDeferral (lock : W64) (s : State) : Out :=
  .next (match s.seat.step with
    | some p =>
      if s.inState [TS_STEPPING] && p.begun && !s.locked then
        let busy := (allTowers.map fun t => if s.quiet t then 0 else 2 ^ t.val).sum
        let s := s.eventN 0x46 (lock.toNat % 2 ^ 32 * 2 ^ 32 + busy) 0
        s.issueNotice (s.notice NK_DEFER p.rubber.toNat 0xFF s.seat.trick.toNat 0x46 0 true (BitVec.ofNat 64 (tick5 (lock.toNat + 500))))
      else s
    | none => s)

end Sys2Proof.Machine
end

