-- ==== Sys2Proof/Machine/Link.lean ====
section
/-! DEFINITION. Links and table formation (12_links_table.md): training, frames and re-send, forwarding, discovery and
admission, time alignment. -/

namespace Sys2Proof.Machine

/-! ### Going down, training (R276 to R278) -/

/-- Causes of LNK_DOWN (R300). -/
abbrev LD_SIGNAL : Nat := 1
abbrev LD_FRAMING : Nat := 2
abbrev LD_RESEND : Nat := 3
abbrev LD_RETRAIN : Nat := 4
abbrev LD_DISABLED : Nat := 5

/-- LNK_STAT.STATE set. -/
def State.setLinkState (s : State) (l : LinkIx) (st : Nat) : State := s.wr (Reg.LNK_STAT l) 2 0 st

/-- What discovery has learned is forgotten (R294). -/
def Link.forget (x : Link) : Link :=
  { x with hello := none, said := none, cert := none, resp := none, nonce := none, own := none, theirs := none, frags := [] }

/-- The link's traffic is lost: its replay buffer, frames and notices that wait, the admission rubber (R278). -/
def Link.cut (x : Link) : Link :=
  { x.forget with stage := .idle, replay := [], cursor := 0, out := [], notices := [], nextSeq := 0,
                  expect := 0, nak := false, lastNak := none, bad := 0, admission := none }

/-- No lane is in use and no partner known: what LNK_STAT and the partner's registers show outside a trained link. -/
def State.clearPartner (s : State) (l : LinkIx) : State :=
  (((s.wr (Reg.LNK_STAT l) 7 4 0).wr (Reg.LNK_STAT l) 35 32 0).setReg (Reg.LNK_PARTNER l) 0xFFFF0000).setReg
    (Reg.LNK_PARTNER_CERT l) 0

/-- The link leaves its state for DOWN, or DISABLED with ENABLE = 0, and raises LNK_DOWN (R278). -/
def State.linkDown (s : State) (l : LinkIx) (cause : Nat) : State :=
  let s := (s.setLink l (s.link l).cut).setLinkState l (if bit (s.reg (Reg.LNK_CTL l)) 0 then LS_DOWN else LS_DISABLED)
  (s.clearPartner l).eventN 0x20 (cause * 2 ^ 8 + l.val) 0

/-- The stage of training set. -/
def State.setStage (s : State) (l : LinkIx) (st : Stage) : State := s.setLink l { s.link l with stage := st }

/-- An attempt fails; after three in a row the link is FAILED with LNK_TRAIN_FAIL (R277). -/
def State.attemptFailed (s : State) (l : LinkIx) : State :=
  let s := s.clearPartner l
  let x := s.link l
  let n := x.fails + 1
  if n ≥ 3 then
    ((s.setLink l { x.cut with fails := n }).setLinkState l LS_FAILED).eventN 0x23 (s.rd (Reg.LNK_STAT l) 11 8 * 2 ^ 8 + l.val) 0
  else (s.setLink l { x.cut with fails := n, stage := .detect }).setLinkState l LS_TRAINING

/-- Detect begins, which completes a RETRAIN; one written again in the same cycle finds the link DOWN, where Detect is
repeated (R7, R276). -/
def State.beginDetect (s : State) (l : LinkIx) : State := (s.doneW1S (Reg.LNK_CTL l) 3).1

/-- LINK_DETECT: signal is detected on every receive lane, and training begins (R276). -/
def execLinkDetect (l : LinkIx) (s : State) : Out :=
  .next (if (s.link l).stage == .detect && (s.linkState l == LS_DOWN || s.linkState l == LS_TRAINING) then
      let s := (s.setStage l .equalise).setLinkState l LS_TRAINING
      (s.beginDetect l).count (Reg.LNK_STAT l) 63 48 1
    else s)

/-- LINK_EQUALISE_DONE (R276). -/
def execLinkEqualiseDone (l : LinkIx) (s : State) : Out :=
  .next (if (s.link l).stage == .equalise then s.setStage l .check else s)

/-- LINK_CHECK_DONE: the lanes that passed at this end (R276). -/
def execLinkCheckDone (l : LinkIx) (good : BitVec 4) (s : State) : Out :=
  .next (if (s.link l).stage == .check then s.setLink l { s.link l with stage := .align, passed := good } else s)

/-- The lane sets in the order of R277, with their lanes. -/
def laneSets : List (Nat × Nat) := [(0xF, 4), (0x3, 2), (0xC, 2), (0x1, 1), (0x2, 1), (0x4, 1), (0x8, 1)]

/-- The most lanes that a WIDTH_MAX allows. -/
def lanesOf (w : Nat) : Nat := if w = 0 then 1 else if w = 1 then 2 else 4

/-- LINK_ALIGN: the ends exchange good-lane masks and widths; a lane is good that passed at both ends (R276), and the lane set
is chosen among those (R277); LNK_NARROW at width 1 or 2. The discovery exchange begins. -/
def execLinkAlign (l : LinkIx) (good : BitVec 4) (widthMax : BitVec 2) (s : State) : Out :=
  .next (if (s.link l).stage == .align then
      let mask := ((s.link l).passed &&& good).toNat
      let s := s.wr (Reg.LNK_STAT l) 11 8 mask
      let most := min (lanesOf (s.rd (Reg.LNK_CTL l) 5 4)) (lanesOf widthMax.toNat)
      match laneSets.find? fun x => Nat.land x.1 mask == x.1 && decide (x.2 ≤ most) with
      | none => s.attemptFailed l
      | some x =>
        let s := ((s.setLink l { (s.link l).cut with stage := .discover }).setLinkState l LS_DISCOVERY).wr (Reg.LNK_STAT l) 7 4 x.1
        if x.2 < 4 then s.eventN 0x21 (x.1 * 2 ^ 8 + l.val) 0 else s
    else s)

/-- TRAINING_STAGE_TIMEOUT: Equalise, Check, Align or Discover reaches its time limit, and the attempt fails (R276). -/
def execTrainingStageTimeout (l : LinkIx) (s : State) : Out :=
  .next (if [Stage.equalise, .check, .align, .discover].contains (s.link l).stage then s.attemptFailed l else s)

/-- LINK_RETRY_TIMER: 1 ms after DOWN, or a second after FAILED, Detect begins again with AUTO = 1, or for a RETRAIN
(R277, R278). -/
def execLinkRetryTimer (l : LinkIx) (s : State) : Out :=
  .next (
    let w := s.reg (Reg.LNK_CTL l)
    if s.linkState l = LS_DOWN ∧ (s.link l).stage = .idle ∧ (bit w 2 ∨ bit w 3) then
      (s.setStage l .detect).beginDetect l
    else if s.linkState l = LS_FAILED ∧ bit w 2 then (s.setStage l .detect).setLinkState l LS_DOWN
    else s)

/-- LOSS_OF_SIGNAL: a lane in use loses signal (R278). -/
def execLossOfSignal (l : LinkIx) (s : State) : Out :=
  .next (if s.aligned l || s.linkState l == LS_TRAINING then s.linkDown l LD_SIGNAL else s)

/-- RETRAIN: a write of 1 to LNK_CTL.RETRAIN (R278). -/
def execRetrain (l : LinkIx) (s : State) : Out :=
  .next (
    let s := s.wr (Reg.LNK_CTL l) 3 3 1
    if s.linkState l = LS_DISABLED ∨ s.linkState l = LS_DOWN then s else s.linkDown l LD_RETRAIN)

/-- LINK_DISABLE: LNK_CTL.ENABLE = 0 holds the link DOWN (R278). -/
def execLinkDisable (l : LinkIx) (s : State) : Out :=
  .next (
    let s := s.wr (Reg.LNK_CTL l) 0 0 0
    if s.linkState l = LS_DISABLED then s
    else if s.linkState l = LS_DOWN then (s.setStage l .idle).setLinkState l LS_DISABLED
    else s.linkDown l LD_DISABLED)

/-- ENABLE written 1 on a disabled link: it is DOWN and detects signal (R276). -/
def State.linkEnable (s : State) (l : LinkIx) : State :=
  let s := s.wr (Reg.LNK_CTL l) 0 0 1
  if s.linkState l = LS_DISABLED then ((s.setStage l .detect).setLinkState l LS_DOWN).beginDetect l else s

/-! ### Frames (R279 to R283) -/

/-- A sequenced frame is accepted when its number is the expected one; any other asks for a re-send (R282). -/
def State.sequenced (s : State) (l : LinkIx) (seq : BitVec 16) : State × Bool :=
  let x := s.link l
  if seq = x.expect then (s.setLink l { x with expect := x.expect + 1, nak := false }, true)
  else (s.setLink l { x with nak := true }, false)

/-- A sequenced frame arrives; what it does where it is accepted. -/
def State.takeFrame (s : State) (l : LinkIx) (h : FrameHead) (act : State → State) : State :=
  match s.frameIn l h with
  | none => s
  | some s1 =>
    if h.rsv then s1
    else
      let r := s1.sequenced l h.seq
      if r.2 then act r.1 else r.1

/-- IDLE: an IDLE frame arrives (R282). -/
def execIdle (l : LinkIx) (h : FrameHead) (s : State) : Out := .next ((s.frameIn l h).getD s)

/-- FRAME_CRC_FAIL: a frame whose CRC fails is discarded and asked for again; eight in a row are a loss of framing (R281,
R282). -/
def execFrameCrcFail (l : LinkIx) (s : State) : Out :=
  .next (if s.aligned l then
      let s := s.count (Reg.LNK_ERR_CNT l) 63 48 1
      let x := s.link l
      if x.bad + 1 ≥ 8 then s.linkDown l LD_FRAMING else s.setLink l { x with bad := x.bad + 1, nak := true }
    else s)

/-- Re-sends counted in RESEND and in the 100 ms window of LNK_ERROR_RATE (R300). -/
def State.countLinkResend (s : State) (l : LinkIx) : State :=
  let s := s.count (Reg.LNK_ERR_CNT l) 47 32 1
  let w := s.now / 10000000
  let x := s.link l
  let n := if x.window = w then x.resends + 1 else 1
  let rated := x.window == w && x.rated
  let th := s.rd (Reg.LNK_CTL l) 31 16
  let hit := th != 0 && decide (th ≤ n) && !rated
  let s := s.setLink l { x with window := w, resends := n, rated := rated || hit }
  if hit then s.eventN 0x24 (min n 65535 * 2 ^ 16 + l.val) 0 else s

/-- RESEND_TIMEOUT: the oldest buffered frame has been neither freed nor asked for within 1,024 cycles (R282). -/
def execResendTimeout (l : LinkIx) (s : State) : Out :=
  .next (if s.aligned l && !(s.link l).replay.isEmpty then s.setLink l { s.link l with cursor := 0 } else s)

/-- The module's own HELLO on a link (R294). -/
def State.ownHello (s : State) (l : LinkIx) : Hello :=
  let f := s.reg Reg.TBL_FORM
  { stepping := 0xB0, tableId := fld f 63 32, xdim := fld f 31 29 + 1, ydim := fld f 28 26 + 1, zdim := fld f 25 23 + 1,
    dummies := min 64 (fld f 22 16), dummy := s.isDummy, link := l.val,
    seat := if s.rd Reg.TBL_FORM_STAT 0 0 = 1 then s.seatId else 0xFFFF, depth := s.rd Reg.TBL_FORM_STAT 15 8,
    dealId := s.reg Reg.TBL_DEAL,
    dealDigest := match s.seat.deal with | some d => d.digest | none => List.replicate 64 0,
    rubber := s.rubber, certDigest := shake256 Config.deviceCert 64 }

/-- The DISC fragments of a message (R294): index, total, 252 bytes of it. -/
def fragments (m : List Byte) : List Frame :=
  let parts := records 252 (max 1 (ceilDiv m.length 252)) m
  parts.mapIdx fun i b =>
    { type := 4, poison := false, attempt := 0, dtag := 0, blk := 0, dest := 0,
      data := BitVec.ofNat 2048 (leNat (leBytes 2 i ++ leBytes 2 parts.length ++ b)) }

/-- A discovery message waits to be sent. -/
def State.sendDisc (s : State) (l : LinkIx) (m : List Byte) : State :=
  let x := s.link l
  s.setLink l { x with out := x.out ++ (fragments m).map fun f => (f, false) }

/-- HELLO is sent whenever any of its fields has changed (R294); on a fenced link the result of the partner's earlier
examination is void from then on (R295). -/
def State.refreshHello (s : State) (l : LinkIx) : State :=
  let h := s.ownHello l
  let x := s.link l
  if x.said = some h then s
  else
    let voids := s.linkState l == LS_FENCED && x.said.isSome
    (s.setLink l { x with said := some h, theirs := if voids then none else x.theirs }).sendDisc l (Config.helloBytes h)

/-- The lanes in use, in ascending order (LNK_STAT.USED). -/
def State.lanes (s : State) (l : LinkIx) : List Nat := (List.range 4).filter fun k => bit (s.reg (Reg.LNK_STAT l)) (4 + k)

/-- A frame leaves with the link's ACKSEQ and NAK, on the lanes in use (R279, R280, R282). -/
def State.emit (s : State) (l : LinkIx) (seq : BitVec 16) (f : Frame) : State :=
  let x := s.link l
  s.send (.linkFrame l.val (striped (s.lanes l) (f.bytes { seq, ackseq := x.expect, nak := x.nak, rsv := false })))

/-- A buffered frame is sent again; the ninth sending takes the link DOWN (R282). -/
def State.resendFrame (s : State) (l : LinkIx) (h : Held) : State :=
  let s := (s.countLinkResend l).emit l h.seq h.frame
  let x := s.link l
  let s := s.setLink l { x with cursor := x.cursor + 1,
                                replay := x.replay.set x.cursor { h with sends := h.sends + 1, at_ := s.now } }
  if h.sends + 1 ≥ 9 then s.linkDown l LD_RESEND else s

/-- A new sequenced frame is sent and buffered (R282). -/
def State.sendFrame (s : State) (l : LinkIx) (f : Frame) (rest : List (Frame × Bool)) : State :=
  let x := s.link l
  let s := s.emit l x.nextSeq f
  let r := x.replay ++ [{ seq := x.nextSeq, frame := f, sends := 1, at_ := s.now }]
  s.setLink l { x with out := rest, replay := r, cursor := r.length, nextSeq := x.nextSeq + 1 }

/-- FRAME_TIME: a link sends one frame (R281 to R284): a notice ahead of everything, then re-sends, then the oldest frame that
waits: TIME with the count and phase of this moment, a sequenced frame while the replay buffer has room; otherwise IDLE. -/
def execFrameTime (l : LinkIx) (s : State) : Out :=
  .next (if !s.aligned l then s
    else
      let s := (s.refreshHello l).gpmu 0x81 (fun q => ofBool (q % 64 == l.val))
      let x := s.link l
      let idle := (s.gpmu 0x82 (fun q => ofBool (q % 64 == l.val))).emit l 0 Frame.idle
      match x.notices with
      | (n, k) :: rest =>
        ((s.gpmu 0x86 (fun _ => 1)).emit l 0 (Frame.notice n)).setLink l { x with notices := if k > 1 then (n, k - 1) :: rest else rest }
      | [] =>
        match x.replay[x.cursor]?, x.out with
        | some h, _ => s.resendFrame l h
        | none, f :: rest =>
          if f.1.type = FT_TIME then
            (s.emit l 0 (Frame.time (s.reg Reg.TBL_TIME) s.seat.phase)).setLink l { x with out := rest }
          else if x.replay.length < 256 then s.sendFrame l f.1 rest else idle
        | none, [] => idle)

/-! ### Arriving blocks (R286, R288, R304) -/

/-- The shape of the table. -/
def State.dims (s : State) : Nat × Nat × Nat :=
  let f := s.reg Reg.TBL_FORM
  (fld f 31 29 + 1, fld f 28 26 + 1, fld f 25 23 + 1)

/-- A working seat of the table. -/
def State.workingSeat (s : State) (n : Nat) : Bool :=
  let d := s.dims
  decide (n < 512) && decide (seatX n < d.1) && decide (seatY n < d.2.1) && decide (seatZ n < d.2.2)

/-- The seat has an identity (TBL_FORM_STAT.SEAT_VALID). -/
def State.seated (s : State) : Bool := s.rd Reg.TBL_FORM_STAT 0 0 == 1

/-- A block for another seat is sent on at the same index in the next dimension-order direction, or dropped (R288). -/
def State.forward (s : State) (l : LinkIx) (f : Frame) : State :=
  let ok := s.seated && !s.isDummy && decide (l.val < 42) && s.workingSeat f.dest
  match (if ok then (routeIn s.dims s.seatId f.dest).1 else none) with
  | some d =>
    match linkOf (l.val / 6 * 6 + d) with
    | some o =>
      if s.linkOpen o then (s.gpmu 0x83 (fun q => ofBool (q % 64 == l.val))).sendOn o f false
      else s.linkDrop l 5 f.dtag
    | none => s.linkDrop l 5 f.dtag
  | none => s.linkDrop l 5 f.dtag

/-- A DATA block for this seat (R286). -/
def State.dataArrive (s : State) (l : LinkIx) (f : Frame) : State :=
  match s.arrival f.attempt f.dtag (l.val / 12) none with
  | .inl kind => s.linkDrop l kind f.dtag
  | .inr lc => s.keepBlock { lcore := lc, dtag := f.dtag, blk := f.blk, die := l.val / 12, block := { data := f.data, poison := f.poison } }

/-- A block frame is taken: for this seat, for another, or on a link that carries no deal traffic (R295, R297). -/
def State.blockIn (s : State) (l : LinkIx) (f : Frame) (own : State → State) : State :=
  if !s.linkOpen l then s.linkDrop l 5 f.dtag
  else if s.seated && f.dest == s.seatId then own s else s.forward l f

/-- DATA: a DATA frame arrives (R282, R286, R288). -/
def execData (l : LinkIx) (h : FrameHead) (f : Frame) (s : State) : Out :=
  .next (s.takeFrame l h fun s => s.blockIn l f fun s => s.dataArrive l f)

/-- COLL: a COLL frame arrives (R282, R288, R304). R304 tests its sending seat, which no field of R280 carries: it comes with the
command (log entry 74). -/
def execColl (l : LinkIx) (h : FrameHead) (f : CollFrame) (s : State) : Out :=
  .next (s.takeFrame l h fun s => s.blockIn l f.frame fun s => s.collArrive l f.frame f.sender.toNat)

/-- DISC: a discovery fragment arrives (R282, R294). -/
def execDisc (l : LinkIx) (h : FrameHead) (payload : BitVec 2048) (s : State) : Out :=
  .next (s.takeFrame l h fun s => s.setLink l { s.link l with frags := (s.link l).frags ++ [payload] })

/-! ### Discovery and admission (R294 to R297) -/

/-- The seat one step from another in a direction (R291). -/
def stepSeat (dims : Nat × Nat × Nat) (n dir : Nat) : Nat :=
  let mv := fun (size a : Nat) (plus : Bool) => if plus then (a + 1) % size else (a + size - 1) % size
  let x := if dir = 0 then mv dims.1 (seatX n) true else if dir = 1 then mv dims.1 (seatX n) false else seatX n
  let y := if dir = 2 then mv dims.2.1 (seatY n) true else if dir = 3 then mv dims.2.1 (seatY n) false else seatY n
  let z := if dir = 4 then mv dims.2.2 (seatZ n) true else if dir = 5 then mv dims.2.2 (seatZ n) false else seatZ n
  x + 8 * y + 64 * z

/-- The size of a direction's dimension. -/
def dimOf (dims : Nat × Nat × Nat) (dir : Nat) : Nat := if dir < 2 then dims.1 else if dir < 4 then dims.2.1 else dims.2.2

/-- Checks 1 to 5 of R295, in order: the reason of the first that fails, or none; `me` is the own seat, where known. The
answer waits while CERT or RESPONSE has not come. -/
def State.checkFive (s : State) (l : LinkIx) (h : Hello) (me : Option Nat) : Option Nat :=
  let x := s.link l
  let own := s.ownHello l
  if h.stepping ≠ 0xB0 then some 1
  else if x.cert = some false ∨ x.resp = some false then some 2
  else if x.cert = none ∨ x.resp = none then none
  else if h.tableId ≠ own.tableId ∨ h.xdim ≠ own.xdim ∨ h.ydim ≠ own.ydim ∨ h.zdim ≠ own.zdim ∨ h.dummies ≠ own.dummies then some 3
  else if s.isDummy then
    if h.dummy ∨ h.link < 42 then some 4
    else if s.workingSeat h.seat && (decide (own.dummies ≤ suitOf h.seat) || l.val != 6 * memberOf h.seat + (h.link - 42)) then some 5
    else some 0
  else if l.val < 42 then
    if h.dummy ∨ h.link ≥ 42 then some 4
    else if h.link ≠ Nat.xor l.val 1 ∨ dimOf s.dims (l.val % 6) = 1 then some 5 else some 0
  else if !h.dummy then some 4
  else match me with
    | some n => if own.dummies ≤ suitOf n ∨ h.link ≠ 6 * memberOf n + (l.val - 42) then some 5 else some 0
    | none => some 0

/-- Check 6 of R295: the two identities are neighbours. -/
def State.checkSix (s : State) (l : LinkIx) (h : Hello) (me : Nat) : Bool :=
  if s.isDummy then s.workingSeat h.seat && me == 512 + suitOf h.seat
  else if l.val < 42 then s.workingSeat h.seat && h.seat == stepSeat s.dims me (l.val % 6)
  else h.seat == 512 + suitOf me

/-- The link is FENCED (R295); LNK_FENCED when the reason is new, TBL_IDENTITY_CONFLICT for check 6 (R296). The partner
learns the reason. -/
def State.fence (s : State) (l : LinkIx) (h : Hello) (reason : Nat) : State :=
  if s.linkState l = LS_FENCED ∧ s.rd (Reg.LNK_STAT l) 35 32 = reason then s
  else
    let s := ((s.setStage l .idle).setLinkState l LS_FENCED).wr (Reg.LNK_STAT l) 35 32 reason
    let s := s.setLink l { s.link l with own := some (reason, 0), fails := 0, admission := none }
    let s := s.eventN 0x22 (h.seat % 65536 * 2 ^ 16 + reason * 2 ^ 8 + l.val) 0
    let s := if reason = 6 then s.eventN 0x26 (h.seat % 65536 * 2 ^ 16 + l.val) 0 else s
    s.sendDisc l (Config.confirmBytes reason 0)

/-- A link that passed every check, at both ends, is admitted (R297), with deal traffic from a rubber on. -/
def State.admitLink (s : State) (l : LinkIx) (h : Hello) (rubber : Nat) : State :=
  let s := ((s.setStage l .idle).wr (Reg.LNK_STAT l) 35 32 0).wr (Reg.LNK_PARTNER l) 63 63 1
  let x := { s.link l with fails := 0 }
  match (match s.seat.deal with | some d => some d | none => s.seat.loading.map (fun (x : Loading) => x.deal)) with
  | none => (s.setLink l { x with admission := none }).setLinkState l LS_UP
  | some d =>
    let least := match d.mapOf s.variant with | some (_, _, ls) => (ls.getD l.val ⟨0xFFFF, 0, 0⟩).width | none => 0
    if x.recorded = some (h.seat, h.link, h.certDigest) ∧ h.dealId = d.dealId ∧ h.dealDigest = d.digest ∧ least ≤ s.linkWidth l then
      (s.setLink l { x with admission := some (BitVec.ofNat 40 rubber) }).setLinkState l LS_UP
    else (s.setLink l { x with admission := none }).setLinkState l LS_STANDBY

/-- Both ends have passed: the link is admitted; a reason from the partner fences it. -/
def State.settle (s : State) (l : LinkIx) : State :=
  let x := s.link l
  match x.hello, x.own, x.theirs with
  | some h, some (0, v), some (0, u) => s.admitLink l h (max u v)
  | some h, some (0, _), some (r, _) => s.fence l h r
  | _, _, _ => s

/-- The checks of one link, once both identities are known (R295). -/
def State.examine (s : State) (l : LinkIx) : State :=
  let x := s.link l
  match x.hello with
  | none => s
  | some h =>
    if !(x.stage == .discover || s.linkState l == LS_FENCED) || !s.seated || h.seat == 0xFFFF then s
    else match s.checkFive l h (some s.seatId) with
      | none => s
      | some 0 =>
        if !s.checkSix l h s.seatId then s.fence l h 6
        else if (x.own.map (·.1)) = some 0 then s.settle l
        else
          let s := if s.linkState l = LS_FENCED then (s.setLinkState l LS_DISCOVERY).setLink l { s.link l with stage := .discover } else s
          ((s.setLink l { s.link l with own := some (0, s.rubber + 2) }).sendDisc l (Config.confirmBytes 0 (s.rubber + 2))).settle l
      | some r => s.fence l h r

/-- The partner from which the seat can take an identity: on a working seat the one of least DEPTH, ties to the lowest link;
on a dummy the first member (R296). -/
def State.candidate (s : State) : Option (LinkIx × Hello) :=
  let ok := allLinks.filterMap fun l => match (s.link l).hello with
    | some h => if s.aligned l && h.seat != 0xFFFF && s.workingSeat h.seat && (s.isDummy || decide (l.val < 42)) &&
        s.checkFive l h none == some 0 then some (l, h) else none
    | none => none
  if s.isDummy then ok.head?
  else ok.foldl (fun b x => match b with
    | some y => if x.2.depth < y.2.depth then some x else some y
    | none => some x) none

/-- An identity is adopted (R296). -/
def State.setIdentity (s : State) (seat depth parent : Nat) : State :=
  ((({ s with seat := { s.seat with ident := BitVec.ofNat 10 seat } }.wr Reg.TBL_STAT 27 18 seat).wr Reg.TBL_FORM_STAT 15 8 (min depth 255)).wr Reg.TBL_FORM_STAT 7 2 parent).wr Reg.TBL_FORM_STAT 0 0 1

/-- A seat without an identity adopts one where a partner gives it (R296); each link is then examined. -/
def State.adopt (s : State) : State :=
  if s.seated then s
  else match s.candidate with
    | none => s
    | some (l, h) =>
      let seat := if s.isDummy then 512 + suitOf h.seat else stepSeat s.dims h.seat (h.link % 6)
      (s.setIdentity seat (h.depth + 1) l.val).each allLinks fun s l => s.examine l

/-- What discovery has learned on a link is acted on. -/
def State.discover (s : State) (l : LinkIx) : State := (s.adopt).examine l

/-- A HELLO shows that the partner has begun discovery anew, and has no CERT of this seat: it has lost its identity, or has
another certificate or form (log entry 72). -/
def Hello.restarts (old new : Hello) : Bool :=
  (new.seat == 0xFFFF && old.seat != 0xFFFF) || old.certDigest != new.certDigest || old.stepping != new.stepping ||
    old.tableId != new.tableId || old.xdim != new.xdim || old.ydim != new.ydim || old.zdim != new.zdim ||
    old.dummies != new.dummies || old.dummy != new.dummy

/-- CERT and CHALLENGE, with a fresh nonce, for a partner that begins discovery (R294). -/
def State.introduce (s : State) (l : LinkIx) : State :=
  let x := s.link l
  ((s.setLink l { x with nonces := x.nonces + 1, cert := none, resp := none, own := none, theirs := none }).sendDisc l
    Config.certChain).sendDisc l (leBytes 32 (Config.nonce l.val x.nonces).toNat)

/-- HELLO: a HELLO message is received (R294 to R296). CERT and CHALLENGE answer a partner that begins discovery; on a fenced
link a changed HELLO makes the result of the partner's earlier examination void (R295). -/
def execHello (l : LinkIx) (m : Hello) (s : State) : Out :=
  .next (if !s.aligned l then s
    else
      let x := s.link l
      let begins := match x.hello with | none => true | some h => h.restarts m
      let voids := s.linkState l == LS_FENCED && x.hello != some m
      let s := s.setLink l { x with hello := some m, frags := [], theirs := if voids then none else x.theirs }
      let s := if begins then s.introduce l else s
      let s := ((s.wr (Reg.LNK_PARTNER l) 31 16 m.seat).wr (Reg.LNK_PARTNER l) 45 40 m.link).wr (Reg.LNK_PARTNER l) 56 56 (ofBool m.dummy)
      (s.setReg (Reg.LNK_PARTNER_CERT l) (BitVec.ofNat 64 (leNat (m.certDigest.take 8)))).discover l)

/-- CERT: the partner's certificate chain is received; whether it verifies is the management processor's finding. -/
def execCert (l : LinkIx) (verifies : Bool) (s : State) : Out :=
  .next (if s.aligned l then (s.setLink l { s.link l with cert := some verifies, frags := [] }).discover l else s)

/-- The SHAKE256 digest of a HELLO. -/
def Hello.digest (h : Option Hello) : List Byte := shake256 ((h.map Config.helloBytes).getD []) 64

/-- A RESPONSE: a signature of 35,664 bytes over both nonces and the digests of both HELLOs (R294). -/
def responseOf (theirs own : BitVec 256) (hello said : Option Hello) : List Byte :=
  (List.range 35664).map (Config.responseByte theirs own (Hello.digest hello) (Hello.digest said))

/-- CHALLENGE: the partner's nonce is received and answered with RESPONSE (R294). -/
def execChallenge (l : LinkIx) (nonce : BitVec 256) (s : State) : Out :=
  .next (if s.aligned l then
      let x := s.link l
      let s := s.setLink l { x with nonce := some nonce, frags := [] }
      s.sendDisc l (responseOf nonce (Config.nonce l.val (x.nonces - 1)) x.hello x.said)
    else s)

/-- RESPONSE: a signed response is received; whether it verifies is the management processor's finding. -/
def execResponse (l : LinkIx) (verifies : Bool) (s : State) : Out :=
  .next (if s.aligned l then (s.setLink l { s.link l with resp := some verifies, frags := [] }).discover l else s)

/-- CONFIRM: the partner's result and its proposed admission rubber (R294, R297). -/
def execConfirm (l : LinkIx) (result : BitVec 4) (rubber : BitVec 40) (s : State) : Out :=
  .next (if s.aligned l && ((s.link l).stage == .discover || s.linkState l == LS_FENCED) then
      (s.setLink l { s.link l with theirs := some (result.toNat, rubber.toNat), frags := [] }).settle l
    else s)

/-- HELLO_PERIOD: HELLO is sent again on every link that completed Align (R294). -/
def execHelloPeriod (s : State) : Out :=
  .next (s.each (allLinks.filter s.aligned) fun s l => (s.setLink l { s.link l with said := none }).refreshHello l)

/-- TIME_PERIOD: every 10 ms a seat with an identity sends TIME on each link that is UP, STANDBY or FENCED (R298): a TIME frame
joins those that wait (R284). -/
def execTimePeriod (s : State) : Out :=
  .next (if s.seated then
      s.each (allLinks.filter fun l => s.aligned l && s.linkState l != LS_DISCOVERY) fun s l =>
        let x := s.link l
        if x.out.any fun f => f.1.type == FT_TIME then s else s.setLink l { x with out := x.out ++ [(Frame.time 0 0, false)] }
    else s)

/-- The own count that a partner's count and phase give after a one-way delay, rounded to the nearest tick, where the present
root cycle is `phase` cycles past the own tick edge (R298). -/
def alignedCount (tick phase oneWay own : Nat) : Nat := (96 * tick + phase + oneWay + 48 - own) / 96

/-- TIME_FRAME: a TIME frame arrives with the partner's count and phase, and the round trip measured (R298, R299): its ACKSEQ
and NAK are taken (R282); the delay is recorded; a seat without a deal aligns to its parent; on an UP link a difference is
reported. -/
def execTimeFrame (l : LinkIx) (f : TimeFrame) (phase : BitVec 16) (rtt : BitVec 16) (s : State) : Out :=
  .next (match s.frameIn l f.head with
    | none => s
    | some s =>
      if f.head.rsv || s.linkState l == LS_DISCOVERY || !s.seated then s
      else
        let one := rtt.toNat / 2
        let s := s.setReg (Reg.LNK_DELAY l) (BitVec.ofNat 64 (rtt.toNat * 2 ^ 16 + one))
        let count := alignedCount f.tick.toNat phase.toNat one s.seat.phase
        let diff : Int := Int.ofNat count - Int.ofNat s.now
        let align := s.rd Reg.TBL_FORM 2 2 == 0 && !s.dealLoaded && s.seat.loading.isNone && s.rd Reg.TBL_FORM_STAT 7 2 == l.val
        let first := align && s.rd Reg.TBL_FORM_STAT 1 1 == 0
        let s := if s.linkState l == LS_UP && diff != 0 && !first then
            (s.eventN 0x27 (unsigned 32 diff * 2 ^ 32 + l.val) 0).wr Reg.TBL_FORM_STAT 1 1 0
          else s
        if align then (s.setReg Reg.TBL_TIME (BitVec.ofNat 64 count)).wr Reg.TBL_FORM_STAT 1 1 1 else s)

/-- TBL_FORM_WRITE: a host write to TBL_FORM takes effect only in EMPTY: identity and TIME_OK clear, discovery starts again
on every link that completed Align, the root takes (0, 0, 0) (R293, R296). -/
def execTblFormWrite (v : W64) (s : State) : Out :=
  .next (if s.tblState ≠ TS_EMPTY then s.access 0 Reg.TBL_FORM
    else
      let s := match regRow Reg.TBL_FORM with
        | some r => s.setReg Reg.TBL_FORM (r.write (s.reg Reg.TBL_FORM) v)
        | none => s
      let s := ({ s with seat := { s.seat with ident := 0 } }.setReg Reg.TBL_FORM_STAT 0xFFFC).showSeat
      let s := s.each (allLinks.filter s.aligned) fun s l =>
        ((s.setLink l { (s.link l).forget with stage := .discover, admission := none }).setLinkState l LS_DISCOVERY).wr (Reg.LNK_STAT l) 35 32 0
      if s.rd Reg.TBL_FORM 2 2 = 1 ∧ !s.isDummy then (s.setIdentity 0 0 63).wr Reg.TBL_FORM_STAT 1 1 1 else s)

end Sys2Proof.Machine
end

