-- ==== Sys2Proof/Machine/HostPorts.lean ====
section
/-! DEFINITION. Turelink and the Crix stream port (14_host_interfaces.md): the vault window, the submission engine, STAGE,
MGMT and NOP, Crix frames and records, egress. -/

namespace Sys2Proof.Machine

/-! ### The vault window (R319) -/

/-- The size and alignment of a vault-window access are right. -/
def windowOk (off len : Nat) : Bool := (len == 8 || len == 32 || len == 64) && off % len == 0

/-- The logical core of a vault-window offset (R318). -/
def windowCore (off : BitVec 38) : Nat := off.toNat / 2 ^ 30

/-- VAULT_WINDOW_READ (R15, R319): a refused access reads zero and is logged. None arrives while Turelink is down (R316). -/
def execVaultWindowRead (off : BitVec 38) (len : Nat) (s : State) : Out :=
  .next (if !s.tlUp then s else
    let s := s.gpmu 0x89 (fun _ => 1)
    if windowOk off.toNat len && (s.physOf (windowCore off)).isSome then s.arriveAccess (windowCore off) (.read off.toNat len)
    else (s.access 1 off.toNat).send (.readData off.toNat (List.replicate (min len 64) 0) []))

/-- VAULT_WINDOW_WRITE (R15, R319): a refused access has no effect and is logged. -/
def execVaultWindowWrite (off : BitVec 38) (bytes : List Byte) (poison : Bool) (s : State) : Out :=
  .next (if !s.tlUp then s else
    let s := s.gpmu 0x89 (fun _ => 1)
    if windowOk off.toNat bytes.length && (s.physOf (windowCore off)).isSome then
      s.arriveAccess (windowCore off) (.write off.toNat bytes poison)
    else s.access 1 off.toNat)

/-! ### STAGE, MGMT, NOP (R326, R327, R416) -/

/-- STAGE: one stored word of a logical core's vault (R326). -/
def State.cmdStage (s : State) (c : CmdRef) (lc addr : Nat) (word : BitVec 256) : State :=
  s.judge c (addr % 32 == 0 && decide (addr < 2 ^ 30)) (s.physOf lc).isSome fun s =>
    s.arriveAccess lc (.stage (addr / 32) word (if s.running then some s.seat.cycles else none) c)

/-- STAGE. -/
def execStage (gen : BitVec 4) (id : BitVec 16) (lcore : Byte) (addr : BitVec 32) (word : BitVec 256) (s : State) : Out :=
  .next (s.cmdStage (s.ref 0x10 gen id) lcore.toNat addr.toNat word)

/-- NOP. -/
def State.cmdNop (s : State) (c : CmdRef) : State := s.judge c true true fun s => s.complete c 0 0 0

/-- NOP. -/
def execNop (gen : BitVec 4) (id : BitVec 16) (s : State) : Out := .next (s.cmdNop (s.ref 0x30 gen id))

/-- The codes of the SPDM requests that the responder supports, in byte 1 of the message after its type (R410; the codes are
DSP0274's: PRESUMED, log entry 26). -/
def spdmRequests : List Nat := [0x81, 0x82, 0x83, 0x84, 0xE0, 0xE1, 0xE3]

/-- What a request's header and body ask; none for a malformed one (R416). -/
def mgmtKind (b : List Byte) : Option MgmtKind :=
  if b.length < 16 ∨ !zeroAt b 2 2 ∨ !zeroAt b 8 8 ∨ numAt b 4 4 + 16 ≠ b.length then none
  else
    match numAt b 0 1, numAt b 1 1 with
    | 1, 0 =>
      match numAt b 16 1 with
      | 5 => if spdmRequests.contains (numAt b 18 1) then some .spdm else some .spdmOther
      | 1 => some .pldm
      | _ => none
    | 2, 1 => if numAt b 4 4 = 16 then some .fwStage else none
    | 2, 2 => some .fwActivate
    | 2, 3 => some .fwCommit
    | 3, 0 => some .telemetry
    | _, _ => none

/-- The full lines of host memory that bytes at an address take; the rest of the first and the last line is zero (R317, log
entry 75). -/
def hostLines (a : Nat) (b : List Byte) : List (Nat × List Byte) :=
  let all := List.replicate (a % 64) 0 ++ b
  let n := ceilDiv all.length 64
  let all := all ++ List.replicate (64 * n - all.length) 0
  (List.range n).map fun i => (a / 64 * 64 + 64 * i, (all.drop (64 * i)).take 64)

/-- The reply to a MGMT request is written and its command completes OK (R416). -/
def State.mgmtReply (s : State) (r : MgmtReq) (rstatus : Nat) (body : List Byte) : State :=
  let cls : Nat × Nat := match r.kind with
    | .spdm | .spdmOther | .pldm => (1, 0) | .fwStage => (2, 1) | .fwActivate => (2, 2) | .fwCommit => (2, 3) | .telemetry => (3, 0)
  let head := leBytes 1 cls.1 ++ leBytes 1 cls.2 ++ leBytes 2 0 ++ leBytes 4 body.length ++ leBytes 1 rstatus ++ List.replicate 7 0
  (s.close r.cmd).respondWith r.cmd 0 0 0 (hostLines r.reply.toNat (head ++ body))

/-- RETRY of a BUSY completion: 500 µs for each queued request, and 200 ms while restarting, within 100 to 65,535 µs
(R416). -/
def State.retry (s : State) : Nat := min 65535 (max 100 (500 * s.sec.queue.length + (if s.sec.restarting then 200000 else 0)))

/-- The processor's queue with its length shown in QDEPTH. -/
def State.setQueue (s : State) (q : List MgmtReq) : State :=
  { s.wr Reg.SEC_MGT_STAT 11 8 q.length with sec := { s.sec with queue := q } }

/-- A firmware operation. -/
def MgmtKind.isFw (k : MgmtKind) : Bool := k == .fwStage || k == .fwActivate || k == .fwCommit

/-- A request of a known form joins the queue; a STAGE while another FW operation is in progress is answered STATE (R409), a
PLDM message and an SPDM request that the responder does not support at once (R410, log entry 26). -/
def State.takeRequest (s : State) (r : MgmtReq) (body : List Byte) : State :=
  match r.kind with
  | .pldm => s.mgmtReply r 0 (Config.pldmReply s.sec.sensors body)
  | .spdmOther =>
    let a : SpdmAnswer := .error .unsupportedRequest
    (s.send (.spdm a)).mgmtReply r 0 (Config.spdmBytes a)
  | k =>
    if k == .fwStage && s.sec.queue.any (fun x => x.kind.isFw) then s.mgmtReply r 1 []
    else s.setQueue (s.sec.queue ++ [r])

/-- MGMT (R327, R416): queued, or BUSY; a request whose form R416 does not give is answered INVALID. -/
def State.cmdMgmt (s : State) (c : CmdRef) (src : Option (Nat × Nat)) (reply : W64) (request : Option (List Byte)) (load : Nat) :
    State :=
  let s := s.wr Reg.SEC_MGT_STAT 23 16 load
  s.judge c true true fun s =>
    let s := s.fetched src
    match request with
    | none => s.complete c 5 0 0
    | some b =>
      if s.sec.queue.length ≥ 8 || s.sec.restarting || decide (90 ≤ load) then
        (s.count Reg.SEC_MGT_STAT 47 32 1).complete c 2 0 s.retry
      else match mgmtKind b with
        | some k => s.takeRequest { cmd := c, kind := k, reply } (b.drop 16)
        | none =>
          let head := b.take 2 ++ leBytes 2 0 ++ leBytes 4 0 ++ leBytes 1 3 ++ List.replicate 7 0
          (s.close c).respondWith c 0 0 0 (hostLines reply.toNat head)

/-- MGMT. -/
def execMgmt (gen : BitVec 4) (id : BitVec 16) (reply : W64) (request : Option (List Byte)) (load : Byte) (s : State) : Out :=
  .next (s.cmdMgmt (s.ref 0x20 gen id) none reply request load.toNat)

/-! ### The submission engine (R320 to R323) -/

/-- A descriptor's generation is fresh for its identifier (R323). -/
def State.fresh (s : State) (gen id : Nat) : Bool :=
  let d := (gen + 16 - Tab.get 15 s.host.lastGen id) % 16
  decide (1 ≤ d ∧ d ≤ 8)

/-- Bytes 8 to 63 of a descriptor are zero but for the ranges listed. -/
def argsClean (b : List Byte) (used : List (Nat × Nat)) : Bool :=
  (List.range 56).all fun i => (used.any fun r => decide (r.1 ≤ i + 8 ∧ i + 8 < r.1 + r.2)) || b.getD (i + 8) 0 == 0

/-- The bytes that a read of a length returned; none where the read failed or returned fewer. -/
def Fetched.bytes (x : Fetched) (n : Nat) : Option (List Byte) :=
  x.payload.bind fun b => if n ≤ b.length then some (b.take n) else none

/-- The effect of a fresh descriptor (R321, R322 checks 2 to 5); none for check 2's unknown OPCODE or nonzero reserved
byte. -/
def State.obey (s : State) (c : CmdRef) (b : List Byte) (x : Fetched) : Option State :=
  let w := fun (o n : Nat) => numAt b o n
  let t := fun (o : Nat) => (BitVec.ofNat 64 (numAt b o 8) : W64)
  let ok := fun (l : List (Nat × Nat)) (r : State) => if argsClean b l then some r else none
  match c.opcode.toNat with
  | 0x01 => ok [(8, 16)] (s.cmdLoad c (some (w 8 8, w 16 8)) (x.bytes (w 16 8)))
  | 0x02 => ok [(8, 8)] (s.cmdStart c (t 8))
  | 0x03 => ok [] (s.cmdStop c)
  | 0x04 => ok [(8, 9)] (s.cmdReplay c (t 8) (w 16 1))
  | 0x05 => ok [(8, 9)] (s.cmdVariant c (w 8 8) (w 16 1))
  | 0x06 => ok [(8, 9), (24, 8)] (s.cmdStep c (w 8 8) (w 16 1) (t 24))
  | 0x07 => ok [] (s.cmdUnload c)
  | 0x10 => ok [(8, 1), (12, 4), (32, 32)] (s.cmdStage c (w 8 1) (w 12 4) (BitVec.ofNat 256 (w 32 32)))
  | 0x20 => ok [(8, 12), (24, 8)] (s.cmdMgmt c (some (w 8 8, w 16 4)) (t 24) (x.bytes (w 16 4)) x.load.toNat)
  | 0x30 => ok [] (s.cmdNop c)
  | _ => none

/-- HST_STALE, at most once per ms, and the count (R322, R323, R337). -/
def State.stale (s : State) (opcode gen id : Nat) : State :=
  let s := s.count Reg.HST_CMD_STAT 63 48 1
  if s.host.staleMs = some s.ms then s
  else { s with host := { s.host with staleMs := some s.ms } }.eventN 0x51 (id * 2 ^ 32 + gen * 2 ^ 24 + opcode) 0

/-- The host address of the next descriptor: entry CONS mod 2^SIZE of the ring (R320). -/
def State.subqEntry (s : State) : Nat :=
  s.rd Reg.HST_SUBQ 63 12 * 4096 + 64 * (s.rd Reg.HST_SUBQ_CONS 31 0 % 2 ^ s.rd Reg.HST_SUBQ 4 0)

/-- One descriptor is fetched and judged (R320 to R323). -/
def State.takeDescriptor (s : State) (x : Fetched) : State :=
  let b := leBytes 64 x.desc.toNat
  let s := s.send (.hostFetch s.subqEntry 64)
  let s := s.wr Reg.HST_SUBQ_CONS 31 0 (s.rd Reg.HST_SUBQ_CONS 31 0 + 1)
  let gen := numAt b 1 1 % 16
  let id := numAt b 2 2
  if !s.fresh gen id then s.stale (numAt b 0 1) gen id
  else
    let s := { s with host := { s.host with lastGen := Tab.put 15 s.host.lastGen id gen } }
    let c := s.ref (numAt b 0 1) (BitVec.ofNat 4 gen) (BitVec.ofNat 16 id)
    if numAt b 1 1 ≥ 16 || !zeroAt b 4 4 then s.respond c 3 0 0
    else match s.obey c b x with
      | some r => r
      | none => s.respond c 3 0 0

/-- The completion ring has room for every fetched, uncompleted descriptor and one more (R320). -/
def State.engineRoom (s : State) : Bool := decide (s.host.held.length + s.host.opened.length + 1 ≤ s.cplRoom)

/-- Descriptors are taken in ring order while there are some and the completion ring has room; those left wait for it
(R320). -/
def State.runEngine (s : State) (prod : Nat) : List Fetched → State
  | [] => { s with host := { s.host with todo := [] } }
  | x :: xs =>
    if s.rd Reg.HST_SUBQ_CONS 31 0 = prod then { s with host := { s.host with todo := [] } }
    else if !s.engineRoom then
      { s with host := { s.host with todo := x :: xs, fullSince := some (s.host.fullSince.getD s.now) } }
    else ({ s with host := { s.host with fullSince := none } }.takeDescriptor x).runEngine prod xs

/-- The engine goes on with the descriptors that waited, while it is enabled and Turelink is up (R320). -/
def State.engineOn (s : State) : State :=
  if bit (s.reg Reg.HST_SUBQ) 5 && s.tlUp then s.runEngine s.host.prod s.host.todo else s

/-- The watched line is read and held shared (R317, R320). -/
def State.holdWatched (s : State) : State :=
  let line := (s.reg Reg.HST_SUBQ_WATCH).toNat / 64 * 64
  { s.send (.hostFetch line 64) with host := { s.host with lines := [line] } }

/-- SUBQ_WAKE: the watched line is invalidated; the engine holds it shared again, reads PROD and takes what it finds
(R317, R320). Nothing is read while Turelink is down (R316). -/
def execSubqWake (prod : BitVec 32) (items : List Fetched) (s : State) : Out :=
  .next (if bit (s.reg Reg.HST_SUBQ) 5 && s.tlUp then
      let s := s.holdWatched
      { s with host := { s.host with prod := prod.toNat } }.runEngine prod.toNat items
    else s)

/-- HST_CPLQ_FULL: the engine has waited 1 ms for room in the completion ring (R337). -/
def execHstCplqFull (s : State) : Out :=
  .next (if s.host.fullSince.isSome then
      { s with host := { s.host with fullSince := none } }.eventN 0x56 s.host.held.length 0
    else s)

/-- The lanes that Turelink uses, of those that passed their check: all 16, the whole set 0 to 7, the whole set 8 to 15, or
none (R316). -/
def tlLanes (good : BitVec 16) : BitVec 16 :=
  if good = 0xFFFF then good else if good &&& 0xFF = 0xFF then 0xFF else if good &&& 0xFF00 = 0xFF00 then 0xFF00 else 0

/-- The number of lanes of a set that `tlLanes` gives. -/
def tlWidth (lanes : BitVec 16) : Nat := if lanes = 0 then 0 else if lanes = 0xFFFF then 16 else 8

/-- TL_LINK: Turelink trains with the lanes that pass, or is lost (R316, R317): held lines are dropped with the link and read
again after training; completions and descriptors that wait go on at its return. -/
def execTlLink (good : BitVec 16) (s : State) : Out :=
  .next (
    let w := tlWidth (tlLanes good)
    let was := tlWidth s.host.lanes
    let s := { s with host := { s.host with lanes := tlLanes good } }
    if w = was then s
    else
      let s := s.eventN 0x53 (w / 8 * 2 ^ 8 + w) 0
      if w = 0 then { s with host := { s.host with lines := [] } }
      else if was = 0 then ((if bit (s.reg Reg.HST_SUBQ) 5 then s.holdWatched else s).flushCompletions).engineOn
      else s)

/-! ### Crix frames (R329, R330, R336) -/

/-- Frames of a channel that fill the module's buffer: those of whole records not performed yet (R330). -/
def State.crixHeld (s : State) (ch : Fin 2) : Nat :=
  ((s.crix.ready[ch.val]).map CxRecord.frames).sum +
    (s.host.accesses.map fun a => match a.2 with | .record r _ => if r.ch = ch then r.frames else 0 | _ => 0).sum

/-- The port goes down or comes up (R328, R336): partial records and replies not sent are lost; an up port announces its
buffers, less the frames that whole records still fill (log entry 75). -/
def State.setCrix (s : State) (up : Bool) : State :=
  if s.crixUp = up then s
  else
    let x := s.crix
    let s := { s.wr Reg.HST_CX_STAT 0 0 (ofBool up) with
      crix := { x with replay := [], out := [], nextSeq := 0, expect := 0, nak := false, owes := false, lastNak := none,
                       credits := Vector.replicate 2 0, freed := Vector.replicate 2 0, parts := Vector.replicate 2 [] } }
    let s := s.eventN 0x54 (ofBool up) 0
    if up then s.crixSend 2 0 { ch := 0, sor := false, payload := leBytes 4 (64 - s.crixHeld 0) ++ leBytes 4 (2048 - s.crixHeld 1) } else s

/-- CX_LINK: Crix goes down or comes up, with the state of its reference (R328, R336). -/
def execCxLink (up cxclk : Bool) (s : State) : Out :=
  .next ((s.wr Reg.HST_CX_STAT 1 1 (ofBool cxclk)).setCrix (up && cxclk))

/-- INIT: the peer's buffer sizes are the initial credits (R330). -/
def execInit (b0 b1 : BitVec 32) (s : State) : Out :=
  .next (if s.crixUp then
      { s with crix := { s.crix with credits := (s.crix.credits.set 0 b0.toNat).set 1 b1.toNat } }.crixFlush
    else s)

/-- Every buffered frame is sent again; the ninth sending takes the port down (R329). -/
def State.crixResend (s : State) : State :=
  let fs := s.crix.replay
  let s := s.each fs fun s f => (s.count Reg.HST_CX_STAT 63 48 1).crixSend 1 f.1 f.2.1
  let s := { s with crix := { s.crix with replay := fs.map fun f => (f.1, f.2.1, f.2.2 + 1) } }
  if fs.any fun f => decide (8 ≤ f.2.2) then s.setCrix false else s

/-- A frame's ACKSEQ frees the frames before it, its credits come back, its NAK asks for a re-send (R329, R330). -/
def State.crixAck (s : State) (h : CrixHead) : State :=
  let x := s.crix
  let k := match x.replay with
    | [] => 0
    | f :: _ => if (h.ackseq - f.1).toNat ≤ x.replay.length then (h.ackseq - f.1).toNat else 0
  let c := (x.credits.set 0 (x.credits[0] + h.cred0.toNat)).set 1 (x.credits[1] + h.cred1.toNat)
  let again := h.nak && x.lastNak != some h.ackseq
  let s := { s with crix := { x with replay := x.replay.drop k, credits := c,
                                     lastNak := if again then some h.ackseq else x.lastNak } }
  (if again then s.crixResend else s).crixFlush

/-- The NAK is set in every frame from here on, and told at once (R282, R329). -/
def State.crixAsk (s : State) : State := { s with crix := { s.crix with nak := true, owes := true } }.crixIdle

/-- A frame arrives on an up port: a good one of a known TYPE acts, one of a reserved TYPE is discarded, a bad one is
counted and asked for again (R329). -/
def State.crixIn (s : State) (h : CrixHead) : State :=
  if !s.crixUp then s
  else if !h.good then (s.count Reg.HST_CX_STAT 47 32 1).crixAsk
  else if h.rsv then s
  else s.crixAck h

/-- CRIX_IDLE_FRAME. -/
def execCrixIdleFrame (h : CrixHead) (s : State) : Out := .next (s.crixIn h)

/-- CRIX_RESEND_TIMEOUT: a frame has not been acknowledged for 500 ns (R329). -/
def execCrixResendTimeout (s : State) : Out :=
  .next (if s.crixUp && !s.crix.replay.isEmpty then s.crixResend else s)

/-! ### Records (R331, R332) -/

/-- A record read from its frames. -/
def recordOf (ch : Fin 2) (b : List Byte) : CxRecord :=
  let flags := numAt b 1 1
  let n := numAt b 16 4
  let data := records 32 (n / 32) ((b.drop 32).take n)
  let map := numAt b (32 + n) (ceilDiv n 256)
  { rtype := numAt b 0 1, flags, tag := numAt b 2 2, lcore := numAt b 4 1, status := numAt b 5 1, addr := numAt b 8 8, len := n,
    deal := BitVec.ofNat 64 (numAt b 24 8), ch, clean := zeroAt b 5 3 && zeroAt b 20 12 && decide (flags < 4),
    words := if numAt b 0 1 = 1 ∧ n ≤ 65536 then
        data.mapIdx fun i w => (BitVec.ofNat 256 (leNat w), decide (flags / 2 % 2 = 1) && decide (map / 2 ^ i % 2 = 1))
      else [] }

/-- The header of a record is well formed and its range lies in the vault (R331, R332). -/
def CxRecord.ok (r : CxRecord) : Bool :=
  r.clean && (if r.ch = 1 then r.rtype == 1 else r.rtype == 2) && r.addr % 32 == 0 && r.len % 32 == 0 &&
    decide (32 ≤ r.len) && decide (r.len ≤ 65536) && decide (r.addr + r.len ≤ 2 ^ 30)

/-- A DATA frame joins the record that arrives on its channel; a whole record waits to be performed (R331). -/
def State.joinRecord (s : State) (ch : Fin 2) (sor : Bool) (payload : BitVec 2048) : State :=
  let x := s.crix
  let old := x.parts[ch.val]
  if !sor && old.isEmpty then s.crixFree ch 1
  else
    let ps := (if sor then [] else old) ++ [leBytes 256 payload.toNat]
    let s := if sor then s.crixFree ch old.length else s
    let x := s.crix
    let head := recordOf ch (ps.headD [])
    if ps.length < head.frames then { s with crix := { x with parts := x.parts.set ch.val ps } }
    else
      { s with crix := { x with parts := x.parts.set ch.val [],
                                ready := x.ready.set ch.val (x.ready[ch.val] ++ [recordOf ch ps.flatten]) } }

/-- CRIX_DATA_FRAME: a DATA frame is accepted in order (R329 to R331). -/
def execCrixDataFrame (h : CrixHead) (ch : Fin 2) (sor : Bool) (seq : BitVec 16) (payload : BitVec 2048) (s : State) : Out :=
  .next (
    let s := s.crixIn h
    if !s.crixUp || !h.good || h.rsv then s
    else if seq = s.crix.expect then
      let s := { s with crix := { s.crix with expect := s.crix.expect + 1, nak := false, owes := true } }.gpmu 0x88 (fun _ => 1)
      (s.joinRecord ch sor payload).crixFlush
    else s.crixAsk)

/-- A record of the channel waits for a host window (R332, R333). -/
def State.recordWaits (s : State) (ch : Fin 2) : Bool :=
  s.host.accesses.any fun a => match a.2 with | .record r _ => r.ch == ch | _ => false

/-- The next whole record of a channel is performed (R319, R332): refused with INVALID or STATE, or placed. -/
def State.performRecord (s : State) (ch : Fin 2) : State :=
  match s.crix.ready[ch.val] with
  | [] => s
  | r :: rest =>
    if s.recordWaits ch then s
    else
      let s := { s with crix := { s.crix with ready := s.crix.ready.set ch.val rest } }
      if !r.ok then s.crixAnswer r 3 []
      else if (s.physOf r.lcore).isNone then (s.access 2 r.addr).crixAnswer r 1 []
      else s.arriveAccess r.lcore (.record r 0)

/-- WRITE: a complete record of channel 1 is performed. -/
def execWrite (s : State) : Out := .next (s.performRecord 1)

/-- READ: a complete record of channel 0 is performed. -/
def execRead (s : State) : Out := .next (s.performRecord 0)

/-! ### Egress (R335) -/

/-- The egress record of a rubber may leave: the seat has ended the last guarded trick of the rubber after it, or the deal
has stopped. -/
def State.egressDue (s : State) (e : Egress) : Bool :=
  e.words.isSome &&
    (!s.dealRuns || decide (e.rubber + 2 ≤ s.rubber) ||
      (decide (e.rubber + 1 = s.rubber) && decide (s.lastGuarded < s.seat.trick.toNat)))

/-- EGRESS: a held egress record is sent (R335), once the port is up (R336). -/
def execEgress (s : State) : Out :=
  .next (if !s.crixUp then s
    else match s.crix.egress.find? s.egressDue with
      | none => s
      | some e =>
        let ws := e.words.getD []
        let poison := ws.any (·.2)
        let s := { s with crix := { s.crix with egress := s.crix.egress.filter fun x => x.rubber != e.rubber } }
        s.crixRecord 0x83 (2 * ofBool poison) 0 (s.rd Reg.HST_CX_EGR 47 40) 0 e.rubber (32 * ws.length) e.deal ws poison)

end Sys2Proof.Machine
end

