-- ==== Sys2Proof/Machine/Power.lean ====
section
/-! DEFINITION. Power delivery and the governor (15): rails and phases, budgets, the window, droop, the ante, the power
states of cores; with it the window's part of 16 (limit terms, the cut term, keep-warm). -/

namespace Sys2Proof.Machine

/-! ### Thermal events and terms that the window shares with 16 -/

/-- A thermal event, at most once per tower in 10 ms (R380). -/
def State.thermEvent (s : State) (t : Tower) (code : Nat) (arg : W64) (req : Nat) : State :=
  let h := s.towerHeat t
  if h.raised.any fun e => e.1 == code && decide (s.now < e.2 + 1000000) then s
  else (s.setHeat t { h with raised := (code, s.now) :: h.raised.filter fun e => e.1 != code }).event code arg req

/-- THM_LIMIT (R380): kind and term. -/
def State.thmLimit (s : State) (t : Tower) (kind term : Nat) : State :=
  s.thermEvent t 0x49 (BitVec.ofNat 64 (kind * 2 ^ 8 + term % 64 * 4 + t.val)) 0

/-- THERM and SRC from the five terms (R370), and the fraction applied with them (R353). -/
def State.formTherm (s : State) (t : Tower) : State :=
  let ts := (s.towerPower t).terms.toList
  let m := min 56 (ts.foldl max 0)
  let src := if m = 0 then 0 else ((List.range 5).find? fun i => decide (m ≤ ts.getD i 0)).getD 0 + 1
  ((s.wr (Reg.PWR_BUBBLE t) 29 24 m).wr (Reg.THM_STAT t) 10 8 src).applyBubble t

/-- One term set: 0 STOP, 1 CUT, 2 J, 3 M, 4 FC. -/
def State.setTerm (s : State) (t : Tower) (i : Fin 5) (n : Nat) : State :=
  let x := s.towerPower t
  s.setPower t { x with terms := x.terms.set i.val n }

/-- A temperature field: 1/16 C, or none for 0x8000 (R362). -/
def tempOf (x : Nat) : Option Int := if x = 0x8000 then none else some (signed 16 x)

/-- The encoding of a temperature. -/
def tempCode (x : Option Int) : Nat := match x with | some v => unsigned 16 v | none => 0x8000

/-- A division of an integer rounded up. -/
def ceilI (a : Int) (b : Nat) : Int := (a + (Int.ofNat b - 1)) / Int.ofNat b

/-! ### Rails and phases (R342, R344, R346) -/

/-- PWR_RAIL_FAULT (R342): the event, a stop notice while the links can carry it, and PWR_GO low for the power-down. -/
def execPwrRailFault (lost : BitVec 5) (s : State) : Out :=
  .next (if lost = 0 then s
    else
      let s := s.setReg Reg.PWR_RAIL_STAT (s.reg Reg.PWR_RAIL_STAT &&& ~~~ (lost.setWidth 64))
      let s := s.eventN 0x44 lost.toNat 0
      let s := if bit lost 4 then s else s.seatNotice NK_STOP 0x44
      { s with boot := { s.boot with pwrGo := false } })

/-- Failed phases of a tower, f of R345. -/
def State.failedPhases (s : State) (t : Tower) : Nat := s.rd (Reg.PWR_PHASE t) 44 40

/-- COUNT follows FAILED. -/
def State.countPhases (s : State) (t : Tower) : State :=
  let w := s.reg (Reg.PWR_PHASE t)
  s.wr (Reg.PWR_PHASE t) 44 40 ((List.range 22).countP fun k => bit w k)

/-- PWR_PHASE_FAIL (R344, R346): the phase is marked failed; the seventeenth failure holds the tower. A phase marked
already keeps its mark. -/
def execPwrPhaseFail (t : Tower) (k : Fin 22) (s : State) : Out :=
  .next (
    let x := s.towerPower t
    let s := s.setPower t { x with good := putBit x.good k.val false }
    if bit (s.reg (Reg.PWR_PHASE t)) k.val then s
    else
      let s := (s.wr (Reg.PWR_PHASE t) k.val k.val 1).countPhases t
      let f := s.failedPhases t
      let arg := f * 2 ^ 32 + ofBool (decide (17 ≤ f)) * 2 ^ 28 + k.val * 2 ^ 16 + t.val
      let s := s.eventN 0x40 arg 0
      if f = 17 then
        let s := (s.wr Reg.PWR_RAIL_STAT (5 + t.val) (5 + t.val) 1).seatNotice NK_HOLD 0x40
        if s.running then s else s.criticalRet
      else s)

/-- A phase's signal has been asserted for the preceding 100 ms (R344). -/
def State.phaseGood (s : State) (t : Tower) (k : Nat) : Bool :=
  let x := s.towerPower t
  bit x.good k && decide (x.since.toList.getD k 0 + 10000000 ≤ s.now)

/-- PHASE_FAIL_CLEAR (R344): a bit clears only where its signal has been good for 100 ms; otherwise the write is logged. -/
def execPhaseFailClear (t : Tower) (mask : BitVec 22) (s : State) : Out :=
  .next (
    let asked := (List.range 22).filter fun k => bit mask k && bit (s.reg (Reg.PWR_PHASE t)) k
    let ok := asked.filter (s.phaseGood t)
    let s1 := (s.each ok fun s k => s.wr (Reg.PWR_PHASE t) k k 0).countPhases t
    if ok.length = asked.length then s1 else s1.access 0 (Reg.PWR_PHASE t))

/-! ### Set points (R341) -/

/-- VMIN in mV of a tower at a clock: the newest record, or 750 with none. -/
def State.vminOf (s : State) (t : Tower) (clock : Nat) : Nat :=
  (s.boot.ledger.applied.reverse.findSome? fun r => match r with
    | .vmin u k mv => if u = t ∧ k = clock then some mv else none
    | _ => none).getD 750

/-- VMIN set, and VSET with it: VMIN plus the ante, which is at least 60 mV. -/
def State.setVolts (s : State) (t : Tower) (vmin : Nat) : State :=
  let s := s.wr (Reg.PWR_VSET t) 15 0 vmin
  s.wr (Reg.PWR_VSET t) 47 32 (vmin + 5 * max 12 (s.rd (Reg.PWR_VSET t) 23 16))

/-- ANTE_WRITE (R341). Before bring-up has applied the ledger, VMIN and VSET read zero (R8). -/
def execAnteWrite (t : Tower) (v : Byte) (s : State) : Out :=
  .next (
    let vmin := s.rd (Reg.PWR_VSET t) 15 0
    let s := s.wr (Reg.PWR_VSET t) 23 16 v.toNat
    if vmin = 0 then s else s.setVolts t vmin)

/-! ### The window (R345, R350 to R354, R369 to R372, R376) -/

/-- The effective budget (R345). -/
def State.effNow (s : State) (t : Tower) : Nat :=
  let f := s.failedPhases t
  let b := min 2880 (s.rd (Reg.PWR_BUDGET t) 15 0)
  if f ≤ 2 then b else if f ≤ 16 then b - ceilDiv ((f - 2) * 35 * s.rd (Reg.PWR_VSET t) 47 32) 250 else 0

/-- The first trick of the loaded deal, its variants in order, that annotates a tower above a budget (R345). -/
def Deal.above (d : Deal) (t : Tower) (eff : Nat) : Option Nat :=
  ((List.range d.nvar).flatMap fun v => (d.tricksOf v).mapIdx fun i e =>
    if eff < e.power.getD t.val 0 then some i else none).findSome? id

/-- EFF takes its value at the boundary, with PWR_BUDGET_LOW where a trick is annotated above a changed one (R345). -/
def State.formEff (s : State) (t : Tower) : State :=
  let e := s.effNow t
  if e = s.rd (Reg.PWR_BUDGET t) 47 32 then s
  else
    let s := s.wr (Reg.PWR_BUDGET t) 47 32 e
    match s.seat.deal with
    | none => s
    | some d =>
      match d.above t e with
      | some i => s.eventN 0x41 (e * 2 ^ 32 + i * 2 ^ 8 + t.val) 0
      | none => s

/-- A core warms (R372): ON and STOPPED. -/
def State.warms (s : State) (p : PCore) : Bool := s.rd (Reg.CORE_PWR p) 5 4 == 0 && s.coreState p == CS_STOPPED

/-- Keep-warm may run on a tower (R372). -/
def State.warmAllowed (s : State) (t : Tower) : Bool :=
  s.rd Reg.THM_CFG 0 0 == 1 && (s.tblState == TS_EMPTY || s.tblState == TS_LOADED || s.tblState == TS_STOPPED) &&
    s.seat.startAt.isNone && s.rd (Reg.THM_STAT t) 2 1 == 0

/-- Keep-warm's target in 1/16 C (R372). -/
def State.warmTarget (s : State) : Int :=
  let t := s.rd Reg.THM_CFG 15 8
  Int.ofNat (16 * (if 50 ≤ t ∧ t ≤ 75 then t else 60))

/-- Core cycles in a governor window at the clock in effect (R350). -/
def State.windowCycles (s : State) : Nat := if s.clock = 0 then 4800 else if s.clock = 1 then 3840 else 3200

/-- The cores of a tower. -/
def coresOf (t : Tower) : List PCore := allCores.filter fun p => towerOf p == t

/-- Warm steps of the window that ends (R372): counted in class 1; the arrays used are left cleared, their configuration
word zero. -/
def State.warmSteps (s : State) (t : Tower) : State :=
  let w := (s.towerPower t).warm
  if w = 0 ∨ !s.warmAllowed t then s.wr (Reg.THM_STAT t) 5 5 0
  else
    let cs := (coresOf t).filter s.warms
    let x := s.towerPower t
    let s := s.setPower t { x with counts := x.counts.set 1 (x.counts[1] + cs.length * 6 * (s.windowCycles * w / 64)) }
    let s := s.each cs fun s p =>
      let c := s.core p
      s.setCore p { c with arrays := c.arrays.map fun a => { a with cfg := 0, cells := [] } }
    s.wr (Reg.THM_STAT t) 5 5 (ofBool !cs.isEmpty)

/-- E of R350 in 1/16 pJ. -/
def State.energy (s : State) (t : Tower) : Nat :=
  let x := s.towerPower t
  ((List.range 12).map fun i => s.rd (Reg.PWR_WEIGHT i) 23 0 * x.counts.toList.getD i 0).sum

/-- S of R350: the entry for the tower's hottest compute-die reading; the first entry below 40 C. -/
def State.static (s : State) (t : Tower) : Nat :=
  let j := match tempOf (s.rd (Reg.THM_TEMP t) 15 0) with
    | some v => if v < 640 then 0 else min 15 ((v - 640) / 80).toNat
    | none => 0
  s.rd (Reg.PWR_LEAK t j) 15 0

/-- 1/16 pJ over 2 us that make 0.25 W. -/
abbrev quarterWatt : Nat := 8000000

/-- WIN before its limit (R351), from E, S and EFF; 255 where D is zero and P above EFF. -/
def winOf (e st eff : Nat) : Nat :=
  let excess : Int := Int.ofNat e + Int.ofNat quarterWatt * (Int.ofNat st - Int.ofNat eff)
  if excess ≤ 0 then 0 else if e = 0 then 255 else min 255 (ceilI (64 * excess) e).toNat

/-- The thermal budget BT in 0.25 W (R376). -/
def budgetBt (eff ratio : Nat) : Nat := eff * 115 * 256 / (100 * ratio)

/-- The cut term (R376), from E, S, EFF, RATIO and the fraction n applied during the window. -/
def cutOf (e st eff ratio n : Nat) : Nat :=
  if ratio = 0 then 0
  else
    let bt := budgetBt eff ratio
    let excess : Int := Int.ofNat (64 * e) + Int.ofNat (quarterWatt * (64 - n)) * (Int.ofNat st - Int.ofNat bt)
    if excess ≤ 0 then 0 else if e = 0 then 56 else min 56 (ceilI excess e).toNat

/-- A limit term (R369): 8 for each started kelvin above a limit in C, at most 56. -/
def limitTerm (temp : Option Int) (limit : Nat) : Nat :=
  match temp with
  | some v => if v ≤ Int.ofNat (16 * limit) then 0 else min 56 (8 * (ceilI (v - Int.ofNat (16 * limit)) 16).toNat)
  | none => 0

/-- J and M, with THM_LIMIT once in a rubber for each (R369). -/
def State.formLimits (s : State) (t : Tower) : State :=
  let j := limitTerm (tempOf (s.rd (Reg.THM_TEMP t) 15 0)) 102
  let m := limitTerm (tempOf (s.rd (Reg.THM_TEMP t) 31 16)) (if s.clock = 0 then 102 else 92)
  let l := (s.towerPower t).limited
  let s := (s.setTerm t 2 j).setTerm t 3 m
  let s := if j ≠ 0 ∧ !l.1 then s.thmLimit t 1 j else s
  let s := if m ≠ 0 ∧ !l.2 then s.thmLimit t 2 m else s
  s.setPower t { s.towerPower t with limited := (l.1 || j != 0, l.2 || m != 0) }

/-- The cut term of the window (R376). -/
def State.formCut (s : State) (t : Tower) (e st : Nat) : State :=
  s.setTerm t 1 (if s.rd (Reg.THM_STAT t) 1 1 = 1 then
    cutOf e st (s.rd (Reg.PWR_BUDGET t) 47 32) (s.rd (Reg.THM_COOL t) 63 48) (s.rd (Reg.PWR_BUBBLE t) 5 0) else 0)

/-- w of keep-warm for the next window (R372), and since when it has been at its limit while the tower is cold (R373). -/
def State.formWarm (s : State) (t : Tower) : State :=
  let x := s.towerPower t
  if !s.warmAllowed t then s.setPower t { x with warm := 0, warmSince := none }
  else
    let half := 2 * s.rd (Reg.PWR_EST t) 15 0
    let eff := s.rd (Reg.PWR_BUDGET t) 47 32
    match tempOf (s.rd (Reg.THM_TEMP t) 15 0) with
    | none => s.setPower t { x with warmSince := none }
    | some tc =>
      let cold := decide (tc < s.warmTarget - 32)
      let limit := decide (x.warm ≥ 64) || decide (half ≥ eff)
      let w := if half > eff then x.warm - 1
        else if cold then (if limit then x.warm else x.warm + 1)
        else if tc > s.warmTarget + 32 then x.warm - 1 else x.warm
      s.setPower t { x with warm := w, warmSince := if cold && limit then some (x.warmSince.getD s.now) else none }

/-- WIN of the next span, with PWR_BUBBLE_SAT (R351, R353); while the seat waits in a clock step the last fraction holds
(R356). -/
def State.formWin (s : State) (t : Tower) (e st : Nat) : State :=
  let x := s.towerPower t
  let s := s.wr (Reg.PWR_BUBBLE t) 13 8 x.nextWin
  if s.tblState = TS_STEPPING then s
  else
    let w := winOf e st (s.rd (Reg.PWR_BUDGET t) 47 32)
    let s := if 56 < w ∧ !x.saturated then s.eventN 0x45 (w * 2 ^ 8 + t.val) 0 else s
    s.setPower t { x with nextWin := min 56 w, saturated := x.saturated || decide (56 < w) }

/-- A window ends on a tower. -/
def State.window (s : State) (t : Tower) : State :=
  let s := (s.formEff t).warmSteps t
  let e := s.energy t
  let st := s.static t
  let est := min 65535 st * 2 ^ 48 + min 65535 (e / quarterWatt) * 2 ^ 32 + min 65535 (e / quarterWatt + st)
  let s := s.setReg (Reg.PWR_EST t) (BitVec.ofNat 64 est)
  let s := (((s.formCut t e st).formWin t e st).formLimits t).formWarm t
  let x := s.towerPower t
  (s.setPower t { x with counts := Vector.replicate 12 0 }).formTherm t

/-- GOVERNOR_WINDOW: a window of 2 us ends and the next begins (R350). -/
def execGovernorWindow (s : State) : Out := .next (s.each allTowers State.window)

/-! ### Droop (R348, R349, R355, R356) -/

/-- The tower of a die. -/
def towerOfDie (d : Die) : Tower := ⟨d.val / 2, by omega⟩

/-- PWR_DROOP: a detector of a die sees its supply below VSET - 40 mV (R348). -/
def execPwrDroop (d : Die) (s : State) : Out :=
  .next (
    let t := towerOfDie d
    let x := s.towerPower t
    let i : Fin 2 := ⟨d.val % 2, Nat.mod_lt _ (by decide)⟩
    let again := x.response[i.val] != 0
    let s := (s.setPower t { x with response := x.response.set i.val 97 }).wr (Reg.PWR_DROOP t) 0 0 0
    if again then s
    else
      let s := s.count (Reg.PWR_DROOP t) 47 32 1
      let x := s.towerPower t
      let recent := match x.droopAt with | some n => decide (s.now < n + 100000) | none => false
      if recent then s.setPower t { x with droops := x.droops + 1 }
      else
        (s.setPower t { x with droopAt := some s.now, droops := 0 }).eventN 0x42
          (min 65535 (x.droops + 1) * 2 ^ 32 + d.val % 2 * 2 ^ 8 + t.val) 0)

/-- PWR_UNDERVOLT: a detector sees its supply below VMIN + 5 mV (R349); a seat whose deal runs or is held originates a
replay notice. -/
def execPwrUndervolt (d : Die) (det : Fin 16) (s : State) : Out :=
  .next (
    let t := towerOfDie d
    let s := (s.count (Reg.PWR_DROOP t) 63 48 1).wr (Reg.PWR_DROOP t) 0 0 0
    let s := s.eventN 0x43 (d.val % 2 * 2 ^ 8 + det.val * 2 ^ 4 + t.val) 1
    if s.dealRuns then s.seatNotice NK_REPLAY 0x43 else s)

/-- DROOP_MONITOR_QUIET: no response has started and no undervoltage been seen for 5 us (R349); a tower that waits to
change its clock begins (R356). -/
def execDroopMonitorQuiet (t : Tower) (s : State) : Out :=
  .next (
    let s := s.wr (Reg.PWR_DROOP t) 0 0 1
    match s.seat.division with
    | some d => s.setSeat { s.seat with division := some { d with begun := putBit d.begun t.val true } }
    | none => s)

/-! ### Retention (R357, R358) -/

/-- A type 0x07 record names the core (R383). -/
def State.retiredCore (s : State) (p : PCore) : Bool :=
  s.boot.ledger.applied.any fun r => match r with | .retire q _ => q == p | _ => false

/-- The core serves a logical core (R96). -/
def State.serves (s : State) (p : PCore) : Bool := s.serving.contains p

/-- What a core's place in the map makes of its STATE when it leaves OFF (R357, R383). -/
def State.placeState (s : State) (p : PCore) : Nat :=
  if s.serves p then CS_STOPPED else if s.retiredCore p then CS_RETIRED else CS_SPARE

/-- A deal that is loaded, or being loaded, names the logical core (R358). -/
def State.dealNames (s : State) (lc : Nat) : Bool :=
  let inDeal := fun (d : Deal) => d.sections.any fun x => x.lcore == lc
  (match s.seat.deal with | some d => inDeal d | none => false) ||
    (match s.seat.loading with | some x => inDeal x.deal | none => false)

/-- A request for RET or OFF is accepted (R358). -/
def State.mayRest (s : State) (p : PCore) : Bool :=
  let st := s.coreState p
  (st == CS_STOPPED || st == CS_SPARE || st == CS_RETIRED) && !(s.serves p && s.dealNames (s.lcoreOf p))

/-- A request for a power state that is not ON (R357, R358): 1 RET, 2 OFF; REQ 3 acts as 2. -/
def State.wantRest (s : State) (p : PCore) (req : Nat) : State :=
  if s.mayRest p then
    let s := s.wr (Reg.CORE_PWR p) 1 0 req
    if s.rd (Reg.CORE_PWR p) 5 4 = min 2 req ∧ s.rd (Reg.CORE_PWR p) 8 8 = 0 then s else s.wr (Reg.CORE_PWR p) 8 8 1
  else s.access 0 (Reg.CORE_PWR p)

/-- CORE_PWR_ON: always accepted (R358). -/
def execCorePwrOn (c : PCore) (s : State) : Out := .next (s.wantOn c)

/-- CORE_PWR_RET. -/
def execCorePwrRet (c : PCore) (s : State) : Out := .next (s.wantRest c 1)

/-- CORE_PWR_OFF. -/
def execCorePwrOff (c : PCore) (s : State) : Out := .next (s.wantRest c 2)

/-- What a core loses in RET: registers and arrays read zero after exit; its vault refreshes itself (R357). -/
def Core.rest (c : Core) : Core :=
  { c with regs := RegFile.zero, src := RegFile.zero, arrays := Vector.replicate 6 Arr.reset, xq := [], ports := [],
           due := [], waiting := none, readySince := none, owed := 0, vault := { c.vault with selfRefresh := true } }

/-- What a core loses in OFF besides: scratch and hand store. -/
def Core.off (c : Core) : Core := { c.rest with scratch := [], scratchPoison := [], hand := [] }

/-- The core is in the power state that was requested; test mode ends where it leaves ON (R193). -/
def State.settlePower (s : State) (p : PCore) : State :=
  let was := s.rd (Reg.CORE_PWR p) 5 4
  let req := min 2 (s.rd (Reg.CORE_PWR p) 1 0)
  let s := (s.wr (Reg.CORE_PWR p) 5 4 req).wr (Reg.CORE_PWR p) 8 8 0
  let s := if req = 0 then s else s.wr (Reg.VLT_TEST_CTL p) 2 2 0
  if req = 0 then
    let c := s.core p
    let s := s.setCore p { c with vault := { c.vault with selfRefresh := false } }
    if was = 2 ∨ s.coreState p = CS_OFF then s.setCoreState p (s.placeState p) else s
  else if req = 1 then s.setCore p (s.core p).rest
  else (s.setCore p (s.core p).off).setCoreState p CS_OFF

/-- POWER_TRANSITION_DONE: the entry or exit that is in progress completes (R357); a load that waited for its cores may end
(R359). -/
def execPowerTransitionDone (c : PCore) (s : State) : Out :=
  .next (if s.rd (Reg.CORE_PWR c) 8 8 = 0 then s else (s.settlePower c).finishLoad)

end Sys2Proof.Machine
end

