-- ==== Sys2Proof/Machine/Heat.lean ====
section
/-! DEFINITION. Heat and cooling (16): samples and assigned temperatures, shadow estimates, the forecast, coolant, the
latched stop, the trip; bond wear (02 R34 to R36). Sensor indices are those of `TowerHeat`. -/

namespace Sys2Proof.Machine

/-! ### Samples (R363 to R365, R368) -/

/-- A sample: none where the converter reports a fault (0x8000) or it lies outside -20 C to 150 C (R364). -/
def sampleOf (x : BitVec 16) : Option Int :=
  match tempOf x.toNat with
  | some v => if v < -320 ∨ 2400 < v then none else some v
  | none => none

/-- The hotter of two temperatures. -/
def hotter (a b : Option Int) : Option Int :=
  match a, b with
  | some x, some y => some (max x y)
  | some x, none => some x
  | none, y => y

/-- The hottest of some temperatures. -/
def hottestOf (xs : List (Option Int)) : Option Int := xs.foldl hotter none

/-- The mean of the valid ones, rounded down; none where none is valid. -/
def meanOf (xs : List (Option Int)) : Option Int :=
  let vs := xs.filterMap id
  if vs.isEmpty then none else some (vs.sum / Int.ofNat vs.length)

/-- The die code of a sensor in THM_SENSOR, and its index there (R380): the physical core, the slice of the tower, or the
sensor of its group. -/
def sensorPlace (t : Tower) (i : Nat) : Nat × Nat :=
  if i < 136 then (i % 68 / 34, 68 * t.val + i % 68)
  else if i < 680 then (2 + (i - 136) % 8, i - 136)
  else if i < 688 then (10, i - 680) else (11, i - 688)

/-- THM_SENSOR (R380). -/
def State.thmSensor (s : State) (t : Tower) (kind i : Nat) : State :=
  let p := sensorPlace t i
  s.thermEvent t 0x47 (BitVec.ofNat 64 (t.val * 2 ^ 48 + kind * 2 ^ 24 + p.1 * 2 ^ 16 + p.2)) 0

/-- Runs of invalid samples; a sensor is marked with the hundredth (R364). -/
def State.countInvalid (s : State) (t : Tower) (xs : List (Option Int)) : State :=
  (xs.mapIdx fun i x => (i, x)).foldl (fun (s : State) (y : Nat × Option Int) =>
    let h := s.towerHeat t
    if h.invalid.contains y.1 then s
    else
      match y.2 with
      | some _ => s.setHeat t { h with runs := Tab.put 0 h.runs y.1 0 }
      | none =>
        let n := Tab.get 0 h.runs y.1 + 1
        if n < 100 then s.setHeat t { h with runs := Tab.put 0 h.runs y.1 n }
        else (s.setHeat t { h with runs := Tab.put 0 h.runs y.1 0, invalid := h.invalid ++ [y.1] }).thmSensor t 1 y.1) s

/-- A core's pair has differed by more than 5 K in every sample over 10 ms (R365). -/
def State.judgePair (s : State) (t : Tower) (j : Nat) (a b : Option Int) : State :=
  let h := s.towerHeat t
  let far := match a, b with
    | some x, some y => decide (80 < x - y ∨ 80 < y - x)
    | _, _ => false
  let n := if far then min 1000 (Tab.get 0 h.differ j + 1) else 0
  let s := s.setHeat t { h with differ := Tab.put 0 h.differ j n }
  if h' : 68 * t.val + j < 272 then
    let p : PCore := ⟨68 * t.val + j, h'⟩
    if n = 1000 ∧ s.rd (Reg.THM_CORE p) 63 63 = 0 then
      ((s.wr (Reg.THM_CORE p) 63 63 1).wr (Reg.THM_STAT t) 4 4 1).thmSensor t 2 j
    else s
  else s

/-- The temperatures of a tower's 68 cores (R364, R365). -/
def coreTemps (v : Nat → Option Int) : List (Option Int) :=
  let pair := fun j => hotter (v j) (v (68 + j))
  let die := fun d => hottestOf ((List.range 34).map fun j => pair (34 * d + j))
  (List.range 68).map fun j =>
    match pair j with
    | some x => some x
    | none => (die (j / 34)).map (· + 80)

/-- The shadow estimate of layer k (R366). -/
def State.shadowE (s : State) (t : Tower) (k : Nat) : Option Int :=
  tempOf (s.rd (Reg.THM_SHADOW t (k / 4)) (16 * (k % 4) + 15) (16 * (k % 4)))

/-- The hottest valid slice sample of a layer. -/
def layerMax (v : Nat → Option Int) (k : Nat) : Option Int := hottestOf ((List.range 68).map fun j => v (136 + 8 * j + k))

/-- Layer k is trusted (R367). -/
def State.trusted (s : State) (t : Tower) (k : Nat) : Bool := bit (s.reg (Reg.THM_LAYER t)) k

/-- The assigned temperature of slice k of vault j (R364, R368). -/
def State.sliceAssigned (s : State) (t : Tower) (v : Nat → Option Int) (k j : Nat) : Option Int :=
  let e := s.shadowE t k
  let x := match v (136 + 8 * j + k) with
    | some x => some x
    | none => hotter e ((layerMax v k).map (· + 80))
  if s.trusted t k then hotter x e else x

/-- THM_CORE and the THM_SLICE registers of core j of a tower. -/
def State.showCore (s : State) (t : Tower) (v : Nat → Option Int) (temp : Option Int) (slices : List (Option Int)) (j : Nat) :
    State :=
  if h : 68 * t.val + j < 272 then
    let p : PCore := ⟨68 * t.val + j, h⟩
    let bad := (s.towerHeat t).invalid
    let w := s.rd (Reg.THM_CORE p) 63 63 * 2 ^ 63 + ofBool (bad.contains j) * 2 ^ 62 + ofBool (bad.contains (68 + j)) * 2 ^ 61 +
      tempCode (v j) * 2 ^ 32 + tempCode (v (68 + j)) * 2 ^ 16 + tempCode temp
    let s := s.setReg (Reg.THM_CORE p) (BitVec.ofNat 64 w)
    let ts := slices.map tempCode
    (s.setReg (Reg.THM_SLICE p 0) (BitVec.ofNat 64 (packNat 16 (ts.take 4)))).setReg (Reg.THM_SLICE p 1)
      (BitVec.ofNat 64 (packNat 16 (ts.drop 4)))
  else s

/-! ### Bond wear (R34 to R36) -/

/-- One cycle counted: appended to the ledger at once; BOND_WEAR at 80% and at 100% of the budget. Before bring-up has read the
count from the ledger, the cycle is kept to be counted then. -/
def State.countCycle (s : State) (t : Tower) : State :=
  if s.rd (Reg.THM_BOND_CYCLES t) 63 32 = 0 then
    { s with boot := { s.boot with early := s.boot.early.set t.val (s.boot.early[t.val] + 1) } }
  else
  let b := s.rd (Reg.THM_BOND_CYCLES t) 63 32
  let old := s.rd (Reg.THM_BOND_CYCLES t) 31 0
  let s := s.count (Reg.THM_BOND_CYCLES t) 31 0 1
  let n := s.rd (Reg.THM_BOND_CYCLES t) 31 0
  let crossed := (decide (4 * b ≤ 5 * n) && decide (5 * old < 4 * b)) || (decide (b ≤ n) && decide (old < b))
  let s := if crossed then s.event 0x4E (Config.bondWearArg t.val n) 0 else s
  s.append [.wear t n false]

/-- The hottest compute-die reading is followed with 2 K hysteresis; a peak more than 25 K above its trough counts
(R34). -/
def State.wear (s : State) (t : Tower) (c : Int) : State :=
  let h := s.towerHeat t
  match h.extreme with
  | none => s.setHeat t { h with extreme := some c, rising := false, trough := c }
  | some x =>
    if h.rising then
      if x < c then s.setHeat t { h with extreme := some c }
      else if c < x - 32 then
        let s := s.setHeat t { h with extreme := some c, rising := false }
        if 400 < x - h.trough then s.countCycle t else s
      else s
    else if c < x then s.setHeat t { h with extreme := some c }
    else if x + 32 < c then s.setHeat t { h with extreme := some c, rising := true, trough := x }
    else s

/-! ### A sample of every sensor (R363, R377) -/

/-- Ten times the lid rate in 1/16 K per ms, once 110 lid means in a row are held (R377). -/
def lidRate (l : List Int) : Option Int :=
  if l.length < 110 then none else some ((l.take 10).sum - ((l.drop 100).take 10).sum)

/-- A tower's lid mean joins the last 110, and RATE follows. -/
def State.lidSample (s : State) (t : Tower) (lid : Option Int) : State :=
  let h := s.towerHeat t
  let l := match lid with | some x => (x :: h.lids).take 110 | none => []
  let s := s.setHeat t { h with lids := l }
  match lidRate l with
  | none => s
  | some r =>
    let s := s.wr (Reg.THM_COOL t) 15 0 (unsigned 16 (r / 10))
    if 80 < r then s.setHeat t { s.towerHeat t with fast := some s.now } else s

/-- One tower's sample. -/
def State.sampleTower (s : State) (t : Tower) (raw : List (BitVec 16)) : State :=
  let xs := (List.range 692).map fun i => sampleOf (raw.getD i 0x8000)
  let s := s.countInvalid t xs
  let bad := (s.towerHeat t).invalid
  let last := xs.mapIdx fun i x => if bad.contains i then none else x
  let v := fun i => last.getD i none
  let s := s.setHeat t { s.towerHeat t with last }
  let s := s.each (List.range 68) fun s j => s.judgePair t j (v j) (v (68 + j))
  let cores := coreTemps v
  let slices := (List.range 68).map fun j => (List.range 8).map fun k => s.sliceAssigned t v k j
  let s := s.each (List.range 68) fun s j => s.showCore t v (cores.getD j none) (slices.getD j []) j
  let comp := hottestOf cores
  let mem := hottestOf slices.flatten
  let base := hottestOf ((List.range 8).map fun i => v (680 + i))
  let lid := meanOf ((List.range 4).map fun i => v (688 + i))
  let w := tempCode lid * 2 ^ 48 + tempCode base * 2 ^ 32 + tempCode mem * 2 ^ 16 + tempCode comp
  let s := s.setReg (Reg.THM_TEMP t) (BitVec.ofNat 64 w)
  let inv := (List.range 8).filter fun k => (List.range 68).any fun j => bad.contains (136 + 8 * j + k)
  let s := s.wr (Reg.THM_LAYER t) 23 16 ((inv.map fun k => 2 ^ k).sum)
  let s := match comp with | some c => s.wear t c | none => s
  s.lidSample t lid

/-- The towers whose lid rate is above 2 K/ms, with ten times their rates. -/
def State.fastLids (s : State) : List (Tower × Int) :=
  allTowers.filterMap fun t => match lidRate (s.towerHeat t).lids with
    | some r => if 320 < r then some (t, r) else none
    | none => none

/-- STOP on every tower (R377): keep-warm stops with it (R372). -/
def State.setStop (s : State) : State :=
  s.each allTowers fun s t => (((s.flag (Reg.THM_STAT t) 2).wr (Reg.THM_STAT t) 5 5 0).setTerm t 0 56).formTherm t

/-- Sudden loss of cooling (R377): two towers or more stop the module's work and hold the table; one alone is reported. -/
def State.judgeLids (s : State) : State :=
  match s.fastLids with
  | [] => s
  | [x] => s.thmLimit x.1 5 0
  | fs =>
    let set := allTowers.all fun t => bit (s.reg (Reg.THM_STAT t)) 2
    let s := s.setStop
    let arg := (fs.map fun x => 2 ^ (12 + x.1.val)).sum + ((fs.map (·.2)).foldl max 0 / 10).toNat % 4096
    let s := s.thermEvent 0 0x4C (BitVec.ofNat 64 arg) 2
    if set then s else s.seatNotice NK_HOLD 0x4C

/-- A trip (R379): the cause is recorded, every clock but CLK_TICK and CLK_MGT stops, THERMTRIP_N is held low. The first cause
stands until VAUX has been removed. -/
def State.trip (s : State) (t : Tower) (analog : Bool) (die : Byte) (temp : BitVec 16) : State :=
  if s.rd Reg.THM_TRIP 63 63 = 1 then s
  else
    let w := 2 ^ 63 + ofBool analog * 2 ^ 62 + t.val * 2 ^ 24 + die.toNat * 2 ^ 16 + temp.toNat
    let s := s.setReg Reg.THM_TRIP (BitVec.ofNat 64 w)
    { s with boot := { s.boot with clocks := false, thermtripN := false } }.event 0x4F (BitVec.ofNat 64 w) 0

/-- The assigned temperatures of a tower (R368) by the die code of THM_SENSOR: the two compute dies, the eight layers, the
lid. -/
def State.assigned (s : State) (t : Tower) : List (Nat × Option Int) :=
  let cores := fun (d : Nat) => hottestOf ((coresOfTower t).map fun p =>
    if p.val / 34 % 2 = d then tempOf (s.rd (Reg.THM_CORE p) 15 0) else none)
  let layer := fun (k : Nat) => hottestOf ((coresOfTower t).map fun p =>
    tempOf (s.rd (Reg.THM_SLICE p (k / 4)) (16 * (k % 4) + 15) (16 * (k % 4))))
  [(0, cores 0), (1, cores 1)] ++ (List.range 8).map (fun k => (2 + k, layer k)) ++
    [(11, tempOf (s.rd (Reg.THM_TEMP t) 63 48))]

/-- The supervisor trips the module where an assigned temperature of a tower has reached 115 C (R379). -/
def State.judgeTrip (s : State) (t : Tower) : State :=
  match (s.assigned t).find? fun x => match x.2 with | some v => decide (1840 ≤ v) | none => false with
  | some x => s.trip t false (BitVec.ofNat 8 x.1) (BitVec.ofNat 16 (tempCode x.2))
  | none => s

/-- The controllers judge the refresh rate at an economy clock (R186). -/
def State.judgeRates (s : State) (ps : List PCore) : State := if s.clock = 0 then s else s.each ps State.refreshRate

/-- SENSOR_SAMPLE (R363): every sensor of the four towers; what the samples show is acted on (R186, R377, R379). -/
def execSensorSample (samples : List (List (BitVec 16))) (s : State) : Out :=
  .next (
    let s := s.each allTowers fun s t => s.sampleTower t (samples.getD t.val [])
    (((s.judgeRates allCores).judgeLids).each allTowers State.judgeTrip))

/-! ### Shadow estimates (R366, R367) -/

/-- The raw value of a layer, in 1/16 K: the mean of its neighbours and THETA times its dissipation. -/
def State.shadowRaw (s : State) (t : Tower) (k : Nat) (u l : Int) : Int :=
  let n := (s.towerHeat t).layer.toList.getD k (0, 0)
  let e := s.rd (Reg.PWR_WEIGHT 7) 23 0 * n.1 + s.rd (Reg.PWR_WEIGHT 8) 23 0 * n.2
  let theta := s.rd Reg.THM_CFG 63 32
  let refresh := s.rd Reg.THM_CFG 31 16
  ((u + l) * 50000000000 + Int.ofNat (theta * (e + 400000000 * refresh))) / 100000000000

/-- A layer's estimate judged against its slices: trusted after 50 computations in a row, 5 ms (R367). -/
def State.judgeLayer (s : State) (t : Tower) (k : Fin 8) (e hot : Option Int) : State :=
  let h := s.towerHeat t
  let far := match e, hot with
    | some x, some y => decide (y + 128 ≤ x)
    | _, _ => false
  let n := if far then min 50 (h.above[k.val] + 1) else 0
  let s := s.setHeat t { h with above := h.above.set k.val n }
  if n = 50 ∧ !s.trusted t k.val then
    (s.wr (Reg.THM_LAYER t) k.val k.val 1).thermEvent t 0x48
      (BitVec.ofNat 64 (tempCode e * 2 ^ 32 + tempCode hot * 2 ^ 16 + k.val * 2 ^ 8 + t.val)) 0
  else s

/-- The estimates of one tower. -/
def State.shadowTower (s : State) (t : Tower) : State :=
  let v := fun i => (s.towerHeat t).last.getD i none
  let compute := fun d => meanOf ((List.range 34).flatMap fun j => [v (34 * d + j), v (68 + 34 * d + j)])
  let layer := fun k => meanOf ((List.range 68).map fun j => v (136 + 8 * j + k))
  let base := meanOf ((List.range 8).map fun i => v (680 + i))
  let lid := meanOf ((List.range 4).map fun i => v (688 + i))
  let es := (List.range 8).map fun k =>
    let u := if k = 7 then compute 0 else layer (k + 1)
    let l := if k = 0 then base else layer (k - 1)
    match u, l with
    | some x, some y => some (Config.shadowFilter (s.shadowE t k) (s.shadowRaw t k x y))
    | _, _ => s.shadowE t k
  let prior := fun i => tempOf (s.rd (Reg.THM_SHADOW t 2) (16 * i + 15) (16 * i))
  let crown := Config.dieEstimate (prior 0) lid (compute 0)
  let heel := Config.dieEstimate (prior 1) (compute 1) (layer 7)
  let low := Config.dieEstimate (prior 2) (layer 0) none
  let s := s.setReg (Reg.THM_SHADOW t 0) (BitVec.ofNat 64 (packNat 16 ((es.take 4).map tempCode)))
  let s := s.setReg (Reg.THM_SHADOW t 1) (BitVec.ofNat 64 (packNat 16 ((es.drop 4).map tempCode)))
  let s := s.setReg (Reg.THM_SHADOW t 2) (BitVec.ofNat 64 (packNat 16 ([crown, heel, low].map fun x => tempCode (some x))))
  let s := s.each (List.finRange 8) fun s k => s.judgeLayer t k (es.getD k.val none) (layerMax v k.val)
  s.setHeat t { s.towerHeat t with layer := Vector.replicate 8 (0, 0) }

/-- SHADOW_ESTIMATE (R366). -/
def execShadowEstimate (s : State) : Out := .next (s.each allTowers State.shadowTower)

/-! ### The forecast (R371) -/

/-- The forecast of one tower is written: predicted peaks and FC. -/
def State.writeForecast (s : State) (t : Tower) (f : BitVec 16 × BitVec 16 × BitVec 6) : State :=
  let fc := min 56 f.2.2.toNat
  let s := s.setReg (Reg.THM_FC t) (BitVec.ofNat 64 (f.2.1.toNat * 2 ^ 32 + f.1.toNat * 2 ^ 16 + fc * 2 ^ 8 + 1))
  ((s.setHeat t { s.towerHeat t with forecast := some s.now }).setTerm t 4 fc).formTherm t

/-- FORECAST_RUN: the management processor writes the forecast of each tower: compute peak, memory peak, FC. A processor
that restarts writes none (R415). -/
def execForecastRun (fs : List (BitVec 16 × BitVec 16 × BitVec 6)) (s : State) : Out :=
  .next (if s.sec.restarting then s
    else s.each allTowers fun s t => match fs[t.val]? with | some f => s.writeForecast t f | none => s)

/-- THM_FORECAST: the forecast has not been written for 5 ms; FC counts as 0. -/
def execThmForecast (t : Tower) (s : State) : Out :=
  .next (if s.rd (Reg.THM_FC t) 0 0 = 0 then s
    else (((s.wr (Reg.THM_FC t) 0 0 0).setTerm t 4 0).formTherm t).thermEvent t 0x4D (BitVec.ofNat 64 t.val) 0)

/-! ### Coolant (R374 to R376) -/

/-- Coolant readings are valid or not; THM_LIMIT once per invalid period (R374). -/
def State.setCoolant (s : State) (ok : Bool) : State :=
  let s := s.wr Reg.THM_COOLANT 63 63 (ofBool ok)
  let raised := s.boot.coolantRaised
  let s := { s with boot := { s.boot with coolantRaised := !ok } }
  if ok || raised then s else s.thmLimit 0 4 0

/-- COOLANT_WRITE: valid while the inlet reads at most 40 C. -/
def execCoolantWrite (inlet outlet flow : BitVec 16) (s : State) : Out :=
  .next (
    let s := s.wr Reg.THM_COOLANT 47 0 (flow.toNat * 2 ^ 32 + outlet.toNat * 2 ^ 16 + inlet.toNat)
    s.setCoolant (match tempOf inlet.toNat with | some v => decide (v ≤ 640) | none => false))

/-- COOLANT_STALE: the last write is more than 5 s old. -/
def execCoolantStale (s : State) : Out := .next (s.setCoolant false)

/-- The inlet used: 40 C while readings are not valid. -/
def State.inlet (s : State) : Int :=
  if s.rd Reg.THM_COOLANT 63 63 = 1 then signed 16 (s.rd Reg.THM_COOLANT 15 0) else 640

/-- WARN and CUT from RATIO (R376). -/
def State.judgeRatio (s : State) (t : Tower) (ratio : Nat) : State :=
  let w := bit (s.reg (Reg.THM_STAT t)) 0
  let c := bit (s.reg (Reg.THM_STAT t)) 1
  let w' := decide (295 ≤ ratio) || (w && decide (282 ≤ ratio))
  let c' := decide (333 ≤ ratio) || (c && decide (320 ≤ ratio))
  let s := (s.wr (Reg.THM_STAT t) 0 0 (ofBool w')).wr (Reg.THM_STAT t) 1 1 (ofBool c')
  let s := if w' && !w then s.thermEvent t 0x4A (BitVec.ofNat 64 (ratio * 2 ^ 16 + t.val)) 0 else s
  if c' && !c then
    let bt := budgetBt (s.rd (Reg.PWR_BUDGET t) 47 32) ratio
    (s.wr (Reg.THM_STAT t) 5 5 0).thermEvent t 0x4B (BitVec.ofNat 64 (bt % 65536 * 2 ^ 32 + ratio * 2 ^ 16 + t.val)) 0
  else s

/-- RTH and RATIO of a tower from its ten-second averages (R375). -/
def State.coolTower (s : State) (t : Tower) : State :=
  match tempOf (s.rd (Reg.THM_TEMP t) 63 48) with
  | none => s
  | some lid =>
    let h := s.towerHeat t
    let xs := ((lid, s.inlet, s.rd (Reg.PWR_EST t) 15 0) :: h.seconds).take 10
    let s := s.setHeat t { h with seconds := xs }
    let eff := s.rd (Reg.PWR_BUDGET t) 47 32
    let rise := (xs.map (·.1)).sum - (xs.map (·.2.1)).sum
    let p := (xs.map (·.2.2)).sum
    if p = 0 ∨ 4 * p < xs.length * eff then s
    else
      let num := (rise * 25000).toNat
      let rth := min 65535 (num / p)
      let s := s.wr (Reg.THM_COOL t) 47 32 rth
      let base := s.rd (Reg.THM_COOL t) 31 16
      if base = 0 then
        let s := s.wr (Reg.THM_COOL t) 63 48 0
        if xs.length * eff ≤ 2 * p ∧ s.rd Reg.THM_COOLANT 63 63 = 1 then
          let l := (s.towerHeat t).learned ++ [rth]
          if l.length < 60 then s.setHeat t { s.towerHeat t with learned := l }
          else (s.setHeat t { s.towerHeat t with learned := [] }).wr (Reg.THM_COOL t) 31 16 (l.sum / 60)
        else s
      else
        let ratio := min 65535 (256 * num / (p * base))
        (s.wr (Reg.THM_COOL t) 63 48 ratio).judgeRatio t ratio

/-- COOLANT_SECOND (R375). -/
def execCoolantSecond (s : State) : Out := .next (s.each allTowers State.coolTower)

/-! ### STOP, keep-warm, the trip -/

/-- THM_STOP_CLEAR (R378): STOP clears only where no lid rate has exceeded 0.5 K/ms in the preceding second; a detection in the same
cycle wins (R6). -/
def execThmStopClear (t : Tower) (s : State) : Out :=
  .next (
    let calm := allTowers.all fun u => match (s.towerHeat u).fast with
      | some n => decide (n + 100000000 ≤ s.now)
      | none => true
    if calm then if bit (s.guardedAt (Reg.THM_STAT t)) 2 then s else ((s.wr (Reg.THM_STAT t) 2 2 0).setTerm t 0 0).formTherm t else s.access 0 (Reg.THM_STAT t))

/-- KEEP_WARM_SHORT (R373): w has been at its limit for 60 s on a cold tower. -/
def execKeepWarmShort (t : Tower) (s : State) : Out :=
  .next (
    let x := s.towerPower t
    match x.warmSince with
    | some _ => (s.setPower t { x with warmSince := some s.now }).thmLimit t 3 0
    | none => s)

/-- THERMAL_TRIP (R379): an analog comparator or the supervisor finds 115 C. -/
def execThermalTrip (t : Tower) (analog : Bool) (die : Byte) (temp : BitVec 16) (s : State) : Out :=
  .next (s.trip t analog die temp)

end Sys2Proof.Machine
end

