-- ==== Sys2Proof/Machine/Boot.lean ====
section
/-! DEFINITION. Bring-up, resets and failure handling (17), the repair ledger (02), power sequencing (20). -/

namespace Sys2Proof.Machine

/-- TBL_BOOT_STAT.STAGE. -/
def State.stage (s : State) : Nat := s.rd Reg.TBL_BOOT_STAT 3 0

/-- The stage in progress set: 0xE FAILED, 0xF READY. -/
def State.toStage (s : State) (n : Nat) : State := s.wr Reg.TBL_BOOT_STAT 3 0 n

/-! ### Core maps (R96, R99, R383) -/

/-- The positions that the entries of a die's map name validly. -/
def namedBy (m : List Nat) : List Nat := (m.filter fun e => decide (128 ≤ e)).map fun e => e % 64

/-- One retirement applied to a die's map: `gone` are the positions retired before it, and it. -/
def retireIn (m : List Nat) (gone : List Nat) (r : Nat) : List Nat :=
  m.map fun e =>
    if e = 128 + r then
      match (List.range 34).find? fun q => !(namedBy m).contains q && !gone.contains q with
      | some q => 128 + q
      | none => r
    else e

/-- A die's map from its retired positions in ledger order, starting at the default map (R99, R383). -/
def dieMap : List Nat → List Nat → List Nat → List Nat
  | m, _, [] => m
  | m, gone, r :: rs => dieMap (retireIn m (gone ++ [r]) r) (gone ++ [r]) rs

/-- The default map (R99). -/
def defaultMap : List Nat := (List.range 32).map fun q => 128 + q

/-- The retired positions of a die, in ledger order. -/
def State.retiredOn (s : State) (d : Die) : List Nat :=
  s.boot.ledger.applied.filterMap fun r => match r with
    | .retire p _ => if dieOf p = d then some (p.val % 34) else none
    | _ => none

/-- What a core's CORE_STAT shows once its place in the map has changed; a core that is off reads OFF. A position that a
map entry newly names is STOPPED, or HELD with the seat. -/
def State.showPlace (s : State) (p : PCore) : State :=
  let st := s.coreState p
  if st = CS_OFF then s
  else
    match s.placeState p with
    | 6 => s.setCoreState p CS_RETIRED
    | 5 => s.setCoreState p CS_SPARE
    | _ =>
      if st = CS_SPARE then
        s.setCoreState p (if s.tblState = TS_HELD ∨ s.tblState = TS_STEPPING then CS_HELD else CS_STOPPED)
      else s

/-- The cores of a die. -/
def coresOn (d : Die) : List PCore := allCores.filter fun p => dieOf p == d

/-- A die's map, the identities of its cores, and its free spares, from the ledger (R383). -/
def State.buildDie (s : State) (d : Die) : State :=
  let gone := s.retiredOn d
  let m := dieMap defaultMap [] gone
  let s := s.each (List.range 4) fun s k =>
    s.setReg (Reg.TBL_CORE_MAP d k) (BitVec.ofNat 64 (packNat 8 ((m.drop (8 * k)).take 8)))
  let free := (List.range 34).countP fun q => !(namedBy m).contains q && !gone.contains q
  let s := s.wr Reg.TBL_SPARE_STAT (4 * d.val + 3) (4 * d.val) free
  s.each (coresOn d) fun s p =>
    let s := match m.findIdx? fun e => e == 128 + p.val % 34 with
      | some q => s.wr (Reg.CORE_ID p) 31 23 ((32 * d.val + q) * 2 + 1)
      | none => s.wr (Reg.CORE_ID p) 31 23 0
    s.showPlace p

/-- RETIRED: cores that the ledger retires. -/
def State.countRetired (s : State) : State :=
  s.wr Reg.TBL_BOOT_STAT 55 48 (allCores.countP s.retiredCore)

/-- A core and its vault are retired: a type 0x07 record, and the map of the die rebuilt (R381, R383). -/
def State.retire (s : State) (p : PCore) (reason : Nat) : State :=
  if s.retiredCore p then s else ((s.append [.retire p reason]).buildDie (dieOf p)).countRetired

/-! ### Power-up (R381, R438, R440) -/

/-- Bits that differ in a block of the SRAM reading from the reading that its helper data was made for. -/
def bitErrors (flips : BitVec 2048) : Nat := (List.range 2048).countP fun i => bit flips i

/-- The first of the 32 blocks of the SRAM reading that the BCH code cannot correct: more than 60 errors (R404, R405). -/
def badBlock (flips : List (BitVec 2048)) : Option Nat :=
  (List.range 32).find? fun k => decide (60 < bitErrors (flips.getD k 0))

/-- The boot ROM reads and corrects the SRAM, takes the root secret and derives its two keys (R404): the identity is
available where every block is corrected and the sealed private key passes its GCM tag (R405). -/
def Sec.powerOn (old : Sec) (bad : Option Nat) (gcm : Bool) : Sec :=
  let s := { Sec.reset with identity := bad.isNone && gcm, preferred := old.preferred, counter := old.counter }
  match bad with
  | none => s
  | some _ => { s with root := none, sealKey := none, counterKey := none }

/-- POWER_ON_RESET: PG_AUX rises with RESET_N high, or RESET_N rises with VAUX kept (R388, R440): every block but what VAUX
and the flash hold is reset, the root locks and PWR_GO goes high (R438). `flips` are the bits in which the SRAM reading
differs from the one enrolled, by block; `gcm` tells whether the sealed private key passes its tag (R404, R405). Whether the
power-off before was orderly is kept for the ledger (R34). After a trip only the removal of VAUX restarts the module. -/
def execPowerOnReset (vaux : Bool) (puf : PufReading) (s : State) : Out :=
  .next (if !vaux && s.rd Reg.THM_TRIP 63 63 == 1 then s
    else
      let regs : Tab W64 := if vaux then [] else s.regs.filter fun e => e.1 == Reg.THM_TRIP || e.1 == Reg.SEC_DEBUG
      let b := s.boot
      let boot := { Boot.reset with
        ledger := { b.ledger with queue := if vaux then [] else b.ledger.queue, applied := [] }, orderly := false, wasOrderly := b.orderly,
        offs := if b.orderly then b.offs else b.offs + 1, early := if vaux then Boot.reset.early else b.early, pwrGo := true }
      let s : State := { Machine.State.reset with
        pending := s.pending, sent := s.sent, regs, boot, sec := s.sec.powerOn (badBlock puf.flips) puf.gcm }
      match badBlock puf.flips with
      | some k => s.eventN 0x61 k 0
      | none => if puf.gcm then s else s.event 0x61 Config.pufArg 0)

/-- A logic rail is up: at least 6 of its phases are good (R438). -/
def State.logicUp (s : State) (t : Tower) : Bool :=
  decide (6 ≤ (List.range 22).countP fun k => bit (s.towerPower t).good k)

/-- Every rail is up. -/
def State.railsUp (s : State) : Bool := s.rd Reg.PWR_RAIL_STAT 4 0 == 31 && allTowers.all s.logicUp

/-- The phases still deasserted at the end of stage 1 are failed phases (R438). -/
def State.failMissing (s : State) : State :=
  s.each allTowers fun s t =>
    s.each ((List.finRange 22).filter fun k => !bit (s.towerPower t).good k.val) fun s k => afterOut (execPwrPhaseFail t k s) s

/-- RAIL_GOOD_ASSERTED: good signals rise, rails in the bit order of PWR_RAIL_STAT and phases by tower; stage 1 ends when
every rail is up (R381, R438). -/
def execRailGoodAsserted (rails : BitVec 5) (phases : List (BitVec 22)) (s : State) : Out :=
  .next (
    let s := s.orReg Reg.PWR_RAIL_STAT (rails.setWidth 64)
    let s := s.each allTowers fun s t =>
      let m := phases.getD t.val 0
      let x := s.towerPower t
      let since := x.since.mapIdx fun k n => if bit m k && !bit x.good k then s.now else n
      s.setPower t { x with good := x.good ||| m, since }
    if s.stage = 1 ∧ s.boot.pwrGo = true ∧ s.railsUp = true then s.failMissing.toStage 2 else s)

/-- STAGE_ONE_TIMEOUT: a good signal is missing at 50 ms; PWR_GO goes low and the module stays off (R440). -/
def execStageOneTimeout (s : State) : Out :=
  .next (if s.stage = 1 ∧ s.boot.pwrGo = true then { s with boot := { s.boot with pwrGo := false } } else s)

/-! ### Firmware (R407) -/

/-- A slot's image fails: 1 its signature, 2 its SVN. -/
def State.imageFault (s : State) (x : Bool × BitVec 16) : Nat :=
  if !x.1 then 1 else if x.2.toNat < s.sec.counter then 2 else 0

/-- SEC_FW_VERIFY_FAIL for a slot, 2 the recovery image. -/
def State.fwFail (s : State) (cause slot : Nat) : State := s.eventN 0x60 (cause * 2 ^ 8 + slot) 0

/-- An image starts: SVN, COUNTER, SLOT, STATE 1; bring-up goes on, and a restart of the processor ends. The root secret has
been cleared from the key registers before (R404), and platform events that waited leave (R417). -/
def State.startImage (s : State) (slot svn : Nat) : State :=
  let s := (((s.wr Reg.SEC_FW_STAT 47 32 svn).wr Reg.SEC_FW_STAT 31 16 s.sec.counter).wr Reg.SEC_FW_STAT 1 0 slot).wr
    Reg.SEC_FW_STAT 7 4 1
  let s := s.sec.alerts.foldl (fun (s : State) r => s.send (.pldmEvent r)) s
  let s := { s with sec := { s.sec with restarting := false, committable := false, root := none, alerts := [] } }
  if s.stage = 2 then s.toStage 3 else s

/-- FIRMWARE_VERIFY: the boot ROM takes the preferred slot, then the other; with neither it enters recovery (R407). The
operands say of slots A and B whether the signature verifies, and the SVN. -/
def execFirmwareVerify (a b : Bool × BitVec 16) (s : State) : Out :=
  .next (if s.stage ≠ 2 ∧ s.sec.restarting = false then s
    else
      let p := s.sec.preferred.val
      let img := fun (k : Nat) => if k = 0 then a else b
      let f1 := s.imageFault (img p)
      if f1 = 0 then s.startImage p (img p).2.toNat
      else
        let s := s.fwFail f1 p
        let f2 := s.imageFault (img (1 - p))
        if f2 = 0 then s.startImage (1 - p) (img (1 - p)).2.toNat
        else (s.fwFail f2 (1 - p)).wr Reg.SEC_FW_STAT 7 4 3)

/-! ### The ledger applied (R37 to R39, R381) -/

/-- The repair byte of a group from the records of a core in order (R37). -/
def repairOf (p : PCore) (g : Nat) (rs : List LedgerRec) : Nat :=
  rs.foldl (fun (b : Nat) (r : LedgerRec) => match r with
    | .line q g' i => if q = p ∧ g' = g ∧ b = 0x1F then i else b
    | .spareBad q g' => if q = p ∧ g' = g then b % 32 + 32 else b
    | _ => b) 0x1F

/-- The channel repair registers of a core from the ledger; a group with a line on a spare that has failed is exhausted (R24,
R39). -/
def State.applyChannel (s : State) (p : PCore) : State :=
  let rs := s.boot.ledger.applied.filter fun r => match r with
    | .line q _ _ => q == p
    | .spareBad q _ => q == p
    | _ => false
  let bytes := (List.range 16).map fun g => repairOf p g rs
  let used := (bytes.mapIdx fun g b => if b % 32 = 0x1F then 0 else 2 ^ g).sum
  let s := s.setReg (Reg.VLT_VCH_SPARE p 0) (BitVec.ofNat 64 (packNat 8 (bytes.take 8)))
  let s := s.setReg (Reg.VLT_VCH_SPARE p 1) (BitVec.ofNat 64 (packNat 8 (bytes.drop 8)))
  let dead := (bytes.mapIdx fun g b => if b % 32 ≠ 0x1F ∧ b / 32 % 2 = 1 then 2 ^ g else 0).sum
  (s.wr (Reg.VLT_VCH_STAT p) 15 0 used).wr (Reg.VLT_VCH_STAT p) 47 32 dead

/-- The delay code of a trimmed point: the last record read, or 32. -/
def State.trimOf (s : State) (t : Tower) (i : Nat) : Nat :=
  (s.boot.ledger.applied.reverse.findSome? fun r => match r with
    | .trim u j c => if u = t ∧ j = i then some c else none
    | _ => none).getD 32

/-- The largest count of bond cycles recorded. -/
def State.wearOf (s : State) (t : Tower) : Nat :=
  s.boot.ledger.applied.foldl (fun (n : Nat) (r : LedgerRec) => match r with
    | .wear u c _ => if u = t then max n c else n
    | _ => n) 0

/-- The characterised weight of an activity, and a leakage entry (15). -/
def State.weightOf (s : State) (i : Nat) : Nat :=
  if i = 11 then 0
  else (s.boot.ledger.applied.reverse.findSome? fun r => match r with
    | .weight j w => if j = i then some w else none
    | _ => none).getD 0xFFFFFF
def State.leakOf (s : State) (t : Tower) (j : Nat) : Nat :=
  (s.boot.ledger.applied.reverse.findSome? fun r => match r with
    | .leak u k x => if u = t ∧ k = j then some x else none
    | _ => none).getD 2880

/-- The registers of a tower that the ledger gives. -/
def State.applyTower (s : State) (t : Tower) : State :=
  let s := s.setReg (Reg.TBL_LAYER_TRIM t) (BitVec.ofNat 64 (packNat 6 ((List.range 10).map (s.trimOf t))))
  let s := s.setVolts t (s.vminOf t s.clock)
  let s := s.setReg (Reg.THM_BOND_CYCLES t) (BitVec.ofNat 64 (30000 * 2 ^ 32 + s.wearOf t))
  let s := s.each (List.range 16) fun s j => s.setReg (Reg.PWR_LEAK t j) (BitVec.ofNat 64 (s.leakOf t j))
  s.each (List.range (s.boot.offs + s.boot.early[t.val])) fun s _ => s.countCycle t

/-- The newest record of type 0x08 of every tower marks an orderly power-off (R387). -/
def State.offMarked (s : State) : Bool :=
  allTowers.all fun t => (s.boot.ledger.applied.reverse.findSome? fun r => match r with
    | .wear u _ o => if u = t then some o else none
    | _ => none) == some true

/-- Rows replaced by spare rows of their banks (R192, R385), and spare rows found bad (1024 and up): a core with a bank of more
failing rows than good spare rows is retired with reason 3. -/
def State.spareRows (s : State) (xs : List (PCore × Nat × Nat × Nat)) : State :=
  let rows := (s.boot.spared ++ xs).eraseDups
  let s := { s with boot := { s.boot with spared := rows } }
  let full := xs.filter fun x => decide (16 < rows.countP fun y => (y.1, y.2.1, y.2.2.1) == (x.1, x.2.1, x.2.2.1))
  s.each (full.map (·.1)).eraseDups fun s p => s.retire p 3

/-- The rows that the ledger's records replace: of type 0x03, and of type 0x04 the row of a remapped segment (R192). -/
def State.ledgerRows (s : State) : List (PCore × Nat × Nat × Nat) :=
  s.boot.ledger.applied.filterMap fun r => match r with
    | .memRepair p slice bank row => some (p, slice, bank, row)
    | .rowSpare p seg => some (p, seg % 8, seg / 8 % 16, seg / 512)
    | _ => none

/-- LEDGER_APPLY: the ledger is verified and applied (R37 to R39, R381): without the factory part bring-up stops; the first
batch that fails and every later one are ignored. Power-offs that were not orderly are counted now (R34); an orderly one
whose mark is in an ignored batch counts as one of them (log entry 76). -/
def execLedgerApply (factoryOk : Bool) (batchesOk : Nat) (s : State) : Out :=
  .next (if s.stage ≠ 3 then s
    else if !factoryOk then s.toStage 0xE
    else
      let l := s.boot.ledger
      let n := min batchesOk l.batches.length
      let applied := l.factory ++ (l.batches.take n).flatten ++ l.queue
      let s := { s with boot := { s.boot with ledger := { l with applied } } }
      let s := if n < l.batches.length then s.eventN 0x63 (n * 2 ^ 32 + 1) 0 else s
      let lost := s.boot.wasOrderly && !s.offMarked && decide (n < l.batches.length)
      let s := { s with boot := { s.boot with offs := s.boot.offs + ofBool lost, wasOrderly := s.boot.wasOrderly && s.offMarked } }
      let s := s.each allTowers State.applyTower
      let s := { s with boot := { s.boot with offs := 0, early := Boot.reset.early } }
      let s := s.each (List.range 12) fun s i => s.setReg (Reg.PWR_WEIGHT i) (BitVec.ofNat 64 (s.weightOf i))
      let s := s.setReg Reg.SEC_ID (BitVec.ofNat 64 (leNat (shake256 Config.deviceCert 8)))
      let s := s.each allCores State.applyChannel
      (((s.each (List.finRange 8) State.buildDie).countRetired).spareRows s.ledgerRows).toStage 4)

/-! ### The tests of bring-up and of a compute reset (R25, R31, R381, R382, R384 to R387, R389) -/

/-- A test may run: in its stage, or as part of a compute reset. -/
def State.testing (s : State) (n : Nat) : Bool := s.stage == n || s.boot.resetting != 0

/-- A core is covered by the compute reset that runs, or bring-up covers all. -/
def State.covered (s : State) (p : PCore) : Bool := s.boot.resetting == 0 || bit s.boot.resetting (towerOf p).val

/-- A stage of bring-up ends; in a compute reset STAGE stays. -/
def State.endStage (s : State) (n : Nat) : State := if s.stage = n then s.toStage (n + 1) else s

/-- A group found exhausted by the connection test retires its core (R24, R25). -/
def State.exhaustAt (s : State) (p : PCore) (g : Nat) : State := (s.wr (Reg.VLT_VCH_STAT p) (32 + g) (32 + g) 1).retire p 2

/-- A line that newly fails takes its group's spare, if that is free and passes. -/
def State.lineFails (s : State) (p : PCore) (g i : Nat) : State :=
  if s.repairByte p g % 64 = i then s
  else if s.spareFree p g then
    let s := (s.wr (Reg.VLT_VCH_SPARE p (g / 8)) (8 * (g % 8) + 4) (8 * (g % 8)) i).wr (Reg.VLT_VCH_STAT p) g g 1
    s.append [.line p g i]
  else s.exhaustAt p g

/-- A spare that newly fails is recorded; in use, its group is exhausted. -/
def State.spareFails (s : State) (p : PCore) (g : Nat) : State :=
  if s.repairByte p g / 32 % 2 = 1 then s
  else
    let s := (s.wr (Reg.VLT_VCH_SPARE p (g / 8)) (8 * (g % 8) + 5) (8 * (g % 8) + 5) 1).append [.spareBad p g]
    if s.repairByte p g % 32 = 0x1F then s else s.exhaustAt p g

/-- CONNECTION_TEST: the lines and spares that fail, and the strobes of which one line or both fail (R23 to R25). Where two
lines of one group newly fail, the first of the command's list takes the spare (DESIGN CHOICE, log entry 70: R25 does not say
which). -/
def execConnectionTest (lines : List (PCore × Fin 16 × Fin 20)) (spares : List (PCore × Fin 16))
    (strobes : List (PCore × Fin 4 × Bool)) (s : State) : Out :=
  .next (if !s.testing 4 then s
    else
      let s := s.each (spares.filter fun x => s.covered x.1) fun s x => s.spareFails x.1 x.2.val
      let s := s.each (lines.filter fun x => s.covered x.1) fun s x => s.lineFails x.1 x.2.1.val x.2.2.val
      let s := s.each (strobes.filter fun x => s.covered x.1) fun s x =>
        if x.2.2 then s.retire x.1 1 else s.wr (Reg.VLT_VCH_STAT x.1) (48 + x.2.1.val) (48 + x.2.1.val) 1
      s.endStage 4)

/-- Point i of a tower needs a code beyond 0 or 63 (R33): TRIM_LIMIT and LAYER_TRIM_LIMIT, raised once until the bit has been
cleared (DESIGN CHOICE, log entry 70: R33 does not say whether each measurement at the limit raises it). -/
def State.trimLimit (s : State) (t : Tower) (i : Nat) : State :=
  if bit (s.reg (Reg.TBL_LAYER_TRIM_STAT t)) i then s
  else (s.flag (Reg.TBL_LAYER_TRIM_STAT t) i).event 0x1E (Config.trimLimitArg t.val i) 0

/-- The delay code of a point. -/
def State.trimCode (s : State) (t : Tower) (i c : Nat) : State := s.wr (Reg.TBL_LAYER_TRIM t) (6 * i + 5) (6 * i) c

/-- A tower is covered by the compute reset that runs, or bring-up covers all. -/
def State.coveredTower (s : State) (t : Tower) : Bool := s.boot.resetting == 0 || bit s.boot.resetting t.val

/-- A point of the trim stage takes the code that gives the smallest error, at its limit where that lies beyond 0 or 63
(R33); one that differs by more than 4 steps from its ledger value is appended (R31). -/
def State.trimPoint (s : State) (t : Tower) (i : Nat) (want : Int) : State :=
  let c := (min 63 want).toNat
  let old := s.trimOf t i
  let s := s.trimCode t i c
  let s := if old + 4 < c ∨ c + 4 < old then s.append [.trim t i c] else s
  if want < 0 ∨ 63 < want then s.trimLimit t i else s

/-- TRIM_STAGE: the codes that give the smallest error, by tower and point (R31, R33). A point that cannot be held within 25 ps
fails bring-up (R381). -/
def execTrimStage (codes : List (List Int)) (held : Bool) (s : State) : Out :=
  .next (if !s.testing 5 then s
    else
      let s := s.each (allTowers.filter s.coveredTower) fun s t => s.each (List.range 10) fun s i =>
        match (codes.getD t.val [])[i]? with
        | none => s
        | some c => s.trimPoint t i c
      if !held then s.toStage 0xE else s.endStage 5)

/-- SELF_TEST_WAVE: the cores of wave w leave OFF and stay ON; one that fails is retired with reason 5 (R382). Each then reads
the state that its place in the map gives, RETIRED among them (R383). -/
def execSelfTestWave (w : Fin 8) (failed : List PCore) (s : State) : Out :=
  .next (if !s.testing 6 || s.boot.waves != w.val then s
    else
      let cs := allCores.filter fun p => p.val % 8 == w.val && s.covered p
      let s := s.each cs fun s p =>
        let s := s.wr (Reg.CORE_PWR p) 8 0 0
        let c := s.core p
        (s.setCore p { c with vault := { c.vault with selfRefresh := false } }).setCoreState p (s.placeState p)
      let s := s.each (cs.filter fun p => failed.contains p) fun s p => s.retire p 5
      let s := { s with boot := { s.boot with waves := s.boot.waves + 1 } }
      if s.boot.waves = 8 ∧ s.stage = 6 then s.toStage 8 else s)

/-- A record that rules a quick test out (R387). -/
def LedgerRec.rulesOut (r : LedgerRec) : Bool :=
  match r with
  | .line .. | .spareBad .. | .memRepair .. | .rowSpare .. | .retire .. => true
  | _ => false

/-- The record is of type 0x09. -/
def LedgerRec.isTest (r : LedgerRec) : Bool := match r with | .memTest .. => true | _ => false

/-- Quick starts since the last full test, by the newest record; none where there is no record (R386). -/
def State.quickStarts (s : State) : Option Nat :=
  match s.boot.ledger.applied.reverse.find? LedgerRec.isTest with
  | some (.memTest _ _ n) => some n
  | _ => none

/-- The quick test is permitted (R387). -/
def State.quickOk (s : State) : Bool :=
  let after := s.boot.ledger.applied.reverse.takeWhile fun r => !r.isTest
  (match s.quickStarts with | some n => decide (n < 16) | none => false) && !after.any LedgerRec.rulesOut && s.boot.wasOrderly

/-- The test that runs: 1 quick, 2 full (R387, R389). -/
def State.testKind (s : State) : Nat :=
  if s.boot.resetting ≠ 0 ∧ s.boot.resetTest = 2 then 2 else if s.quickOk then 1 else 2

/-- MEMORY_TEST: the failing rows, which spare rows of their banks replace; the spare rows that fail, which are recorded and
never used; the vaults with a failing spare segment (R384 to R386). A vault that cannot be repaired is retired with its core.
Every vault tested is left holding zeros. -/
def execMemoryTest (found : MemFindings) (dead : List PCore) (s : State) : Out :=
  .next (if s.stage ≠ 8 ∧ (s.boot.resetting = 0 ∨ s.boot.resetTest = 0) then s
    else
      let ps := allCores.filter fun p => s.covered p && !s.retiredCore p
      let kind := s.testKind
      let new := fun (xs : List (PCore × Nat × Nat × Nat)) =>
        xs.eraseDups.filter fun x => ps.contains x.1 && !s.boot.spared.contains x
      let reps := new (found.rows.map fun x => (x.1, x.2.1.val, x.2.2.1.val, x.2.2.2.val))
      let bad := new (found.spares.map fun x => (x.1, x.2.1.val, x.2.2.1.val, 1024 + x.2.2.2.val))
      let s := s.each ps fun s p =>
        let c := s.core p
        s.setCore p { c with vault := { c.vault with mem := [], spare := [] } }
      let s := s.append ((bad ++ reps).map fun x => .memRepair x.1 x.2.1 x.2.2.1 x.2.2.2)
      let s := s.spareRows (bad ++ reps)
      let counts := (reps.map (·.1)).eraseDups.map fun p => (p, reps.countP fun x => x.1 == p)
      let s := s.each counts fun s x => s.eventN 0x1B (x.2 * 2 ^ 32 + x.1.val) 0
      let s := s.each (dead.filter fun p => ps.contains p) fun s p => s.retire p 3
      let n := if kind = 1 then s.quickStarts.getD 0 + 1 else 0
      let s := s.append [.memTest (kind == 2) counts n]
      ((s.wr Reg.TBL_BOOT_STAT 5 4 kind).wr Reg.TBL_BOOT_STAT 47 32 reps.length).endStage 8)

/-- BRINGUP_READY: the spares enter RET and STAGE reads READY (R358, R381). -/
def execBringupReady (s : State) : Out :=
  .next (if s.stage ≠ 9 then s
    else
      let s := s.each (allCores.filter fun p => s.coreState p == CS_SPARE) fun s p => (s.wr (Reg.CORE_PWR p) 8 0 1).settlePower p
      (s.wr Reg.TBL_BOOT_STAT 31 8 ((s.now - s.boot.began) / 100000)).toStage 0xF)

/-! ### Trims in service (R32, R33) -/

/-- TRIM_MEASURE: each point of a tower moves one step towards the code its measurement wants, unless frozen; a code beyond
0 or 63 is at its limit (R32, R33). `lost` says that the error of a layer has reached 25 ps: the tower's clock has failed, and
its cores are clocked no more (R33). -/
def execTrimMeasure (t : Tower) (m : TrimReading) (s : State) : Out :=
  .next (
    let s := if m.lost then { s with boot := { s.boot with clockLost := putBit s.boot.clockLost t.val true } } else s
    if s.rd (Reg.TBL_LAYER_TRIM_STAT t) 16 16 = 1 then s
    else s.each (List.range 10) fun s i =>
      let c := s.rd (Reg.TBL_LAYER_TRIM t) (6 * i + 5) (6 * i)
      let w := m.want.getD i 0
      if w = 0 then s
      else if (0 < w ∧ c = 63) ∨ (w < 0 ∧ c = 0) then s.trimLimit t i
      else s.trimCode t i (if 0 < w then c + 1 else c - 1))

/-- TOWER_CLOCK_LOCK: a tower's generator reports lock at the new frequency (R32, R262, R355): its trims track again, its set
point is that of the new clock, and its controllers judge the refresh rate (R186); with the fourth the new clock is in
effect. -/
def execTowerClockLock (t : Tower) (s : State) : Out :=
  .next (match s.seat.division with
    | none => s
    | some d =>
      if !bit d.begun t.val then s
      else
        let s := (s.wr (Reg.TBL_LAYER_TRIM_STAT t) 16 16 0).setVolts t (s.vminOf t d.clock)
        let locked := putBit d.locked t.val true
        if locked = 15 then ((s.setSeat { s.seat with division := none }).wr Reg.TBL_STAT 33 32 d.clock).judgeRates allCores
        else s.setSeat { s.seat with division := some { d with locked } })

/-! ### Compute resets (R388 to R390) -/

/-- The seat leaves its deal at once without a notice (R390): its cores stop issuing, what the host had named is overtaken, the
engines are empty, sends that have not left are dropped, held sequence writes take effect, and the table registers that
a compute reset covers are reset (R388); the clock is 2.4 GHz again, and links carry traffic from rubber 0 on (log entry
77). -/
def State.leaveDeal (s : State) : State :=
  let x := s.seat
  let cut := (match x.startAt with | some a => [a.2] | none => []) ++ (match x.loading with | some a => [a.cmd] | none => []) ++
    (match x.replayAt with | some (_, some a) => [a.2] | _ => []) ++ (match x.variantAt with | some a => [a.2.2] | none => []) ++
    (match x.step with | some a => [a.cmd] | none => []) ++ x.stops
  let s := if s.dealRuns then s.haltCores else s
  let s := s.setSeat { Seat.reset with ident := x.ident, phase := x.phase, cycles := x.cycles, seen := x.seen,
                                       division := x.division.map fun d => { d with clock := 0 } }
  let s := s.each x.seqHeld fun s w => s.setReg w.addr w.value
  let table := fun (a : Nat) => a = Reg.TBL_STAT ∨ (Reg.TBL_RUN ≤ a ∧ a ≤ Reg.TBL_MISDEAL) ∨ a = Reg.TBL_MARGIN ∨ (0x4000 ≤ a ∧ a < 0x4100)
  let s := { s with regs := s.regs.filter fun e => !decide (table e.1), engines := Vector.replicate 4 Engine.reset }
  let s := s.each allLinks fun s l => s.setLink l { s.link l with admission := none }
  let s := (s.each allTowers fun s t => s.setVolts t (s.vminOf t 0)).dropSends.clearPre
  (s.each cut fun s c => s.complete c 1 TS_EMPTY 0).serveIdle

/-- The control address lies in the per-core blocks of a tower of a mask. -/
def inTowers (m : BitVec 4) (a : Nat) : Bool :=
  decide (0x100000000 ≤ a) && bit m ((a - 0x100000000) / 0x100000 / 68)

/-- A vault's remap entry (R389 keeps it, through the records of type 0x04). -/
def isRemap (a : Nat) : Bool := decide (0x100000000 ≤ a ∧ 0x10300 ≤ (a - 0x100000000) % 0x100000 ∧ (a - 0x100000000) % 0x100000 < 0x10340)

/-- The cores of a compute reset (R388, R389): reset, off; without a memory test the vaults keep their contents and their
remap tables. -/
def State.resetCores (s : State) (m : BitVec 4) (keep : Bool) : State :=
  let s := { s with regs := s.regs.filter fun e => !inTowers m e.1 || (keep && isRemap e.1) }
  let ps := allCores.filter fun p => bit m (towerOf p).val
  let s := s.each ps fun s p =>
    let v := (s.core p).vault
    s.setCore p { Core.reset with vault :=
      { Vault.reset with mem := if keep then v.mem else [], spare := if keep then v.spare else [], selfRefresh := true } }
  let s := s.each ps State.applyChannel
  s.each ((List.finRange 8).filter fun d => bit m (d.val / 2)) State.buildDie

/-- A compute reset begins (R388 to R390): TEST asks for a memory test, 3 acting as 0; a sparing in a covered tower is
abandoned. -/
def State.computeReset (s : State) (m : BitVec 4) : State :=
  let test := s.rd Reg.TBL_RESET 7 6 % 3
  let s := s.leaveDeal
  let drop := match s.boot.sparing with | some x => bit m (towerOf x.retired).val | none => false
  let s := if drop then { s.wr Reg.TBL_SPARE_CTL 63 63 0 with boot := { s.boot with sparing := none } } else s
  let s := { s with boot := { s.boot with resetting := s.boot.resetting ||| m, resetTest := test, waves := 0 } }
  s.resetCores m (test == 0)

/-- The resets asked for by bits of TBL_RESET begin. -/
def State.startResets (s : State) (bits : W64) : State :=
  if bit bits 4 then s.computeReset 15 else if fld bits 3 0 = 0 then s else s.computeReset (BitVec.ofNat 4 (fld bits 3 0))

/-- Bits of TBL_RESET are written 1: they are set, and each reset that does not run already begins (R7, R388). -/
def State.askReset (s : State) (bits : W64) : State :=
  let new := bits &&& ~~~ s.reg Reg.TBL_RESET
  ((s.setReg Reg.TBL_RESET (s.reg Reg.TBL_RESET ||| bits)).protect Reg.TBL_RESET (s.reg Reg.TBL_RESET &&& bits)).startResets new

/-- MODULE_COMPUTE_RESET. -/
def execModuleComputeReset (s : State) : Out := .next (s.askReset (fldMask 64 4 4))

/-- TOWER_COMPUTE_RESET. -/
def execTowerComputeReset (t : Tower) (s : State) : Out := .next (s.askReset (fldMask 64 t.val t.val))

/-- COMPUTE_RESET_DONE: its stages are finished and its bits clear; TBL_STAT shows the seat and the diameter again (log entry
77). A reset asked for again in this cycle starts once more (R7). -/
def execComputeResetDone (s : State) : Out :=
  .next (if s.boot.resetting = 0 then s
    else
      let again := s.guardedAt Reg.TBL_RESET &&& 0x1F
      let s := (List.range 5).foldl (fun (s : State) i => (s.doneW1S Reg.TBL_RESET i).1) s
      ({ s with boot := { s.boot with resetting := 0, resetTest := 0 } }.showSeat).startResets again)

/-! ### Sparing (R392, R393) -/

/-- SPARE_GO is accepted: table state, REASON, and a core that serves or is a spare; one sparing at a time. -/
def State.maySpare (s : State) (p : BitVec 9) (reason : Nat) : Bool :=
  s.inState [TS_EMPTY, TS_LOADED, TS_STOPPED, TS_HELD, TS_STEPPING] && decide (1 ≤ reason ∧ reason ≤ 5) && s.boot.sparing.isNone &&
    (if h : p.toNat < 272 then !s.retiredCore ⟨p.toNat, h⟩ else false)

/-- SPARE_GO (R392): the retirement's record, the map change, and the spare leaves RET. -/
def execSpareGo (p : BitVec 9) (reason : Byte) (copy : Bool) (s : State) : Out :=
  .next (
    if !s.maySpare p reason.toNat then s.access 0 Reg.TBL_SPARE_CTL
    else if h : p.toNat < 272 then
      let q : PCore := ⟨p.toNat, h⟩
      let serving := s.serves q
      let lc := s.lcoreOf q
      let s := ((s.wr Reg.TBL_SPARE_CTL 55 48 reason.toNat).wr Reg.TBL_SPARE_CTL 40 40 (ofBool copy)).wr Reg.TBL_SPARE_CTL 8 0 p.toNat
      let pend := s.boot.retirePend
      let s := { s with boot := { s.boot with retirePend := pend.filter fun x => x.1 != q } }
      let s := if pend.any (fun x => x.1 == q) then s.wr Reg.TBL_SPARE_STAT 63 56 (s.rd Reg.TBL_SPARE_STAT 63 56 - 1) else s
      let s := s.retire q reason.toNat
      let new := if serving then s.physOf lc else none
      let s := (s.wr Reg.TBL_SPARE_CTL 63 63 1).wr Reg.TBL_SPARE_CTL 24 16 (match new with | some n => n.val | none => 0x1FF)
      let s := if serving && new.isNone then s.flag Reg.TBL_SPARE_CTL 61 else s
      let s := { s with boot := { s.boot with sparing := some { retired := q, spare := new, copy, reason := reason.toNat } } }
      match new with
      | some n => s.wantOn n
      | none => s
    else s)

/-- The words of a vault that hold anything: listed ones, and those of its spare segments. -/
def State.liveWords (s : State) (p : PCore) : List Nat :=
  let v := (s.core p).vault
  let segs := (List.range 8).filterMap fun e =>
    let r := s.reg (Reg.VLT_REMAP p e)
    if bit r 63 then some (remapSeg r) else none
  ((v.mem.map fun (c : Host.Cell) => c.1 / 36) ++ segs.flatMap segmentWords).eraseDups

/-- The whole vault copied with every word's 288 bits; a word that cannot be read is written with POISON = 1 (R392). -/
def State.copyVault (s : State) (p q : PCore) : State :=
  let ws := (s.liveWords p).map fun w =>
    let x := s.vget p w
    match (decodeWord x).1 with
    | .uncorrectable => (w, encodeWord x.data (x.md ||| 1))
    | _ => (w, x)
  let v := (s.core q).vault
  let s := s.setVault q { v with mem := [], spare := [] }
  ws.foldl (fun (s : State) (y : Nat × Stored) => s.vput q y.1 y.2) s

/-- The other state copied (R392): scratch, hand store, tables and layout, CORE_START and its latched value, snapshots,
CORE_NUM_EVENT_EN, seeds, VLT_CFG. -/
def State.copyCore (s : State) (p q : PCore) : State :=
  let a := s.core p
  let b := s.core q
  let s := s.setCore q { b with scratch := a.scratch, scratchPoison := a.scratchPoison, hand := a.hand, start := a.start,
                                snaps := a.snaps }
  let same := fun (s : State) (f : PCore → Nat) => s.setReg (f q) (s.reg (f p))
  let s := [Reg.CORE_START, Reg.CORE_NUM_EVENT_EN, Reg.CORE_SR_SEED0, Reg.CORE_SR_SEED1, Reg.VLT_CFG, Reg.IB_TAB_VALID,
    Reg.IB_KV_CFG, Reg.IB_KV_TOK].foldl same s
  s.each (List.range 16) fun s k => s.each (List.range 132) fun s w => same s fun p => Reg.IB_TAB p k w

/-- CORE_RETIRED: the copy completes, DONE is set and CORE_RETIRED raised (R392, R393); FAIL where the hand store or the
release tables could not be read, or no spare is left. -/
def execCoreRetired (readable : Bool) (s : State) : Out :=
  .next (match s.boot.sparing with
    | none => s
    | some x =>
      let copy := x.copy && s.seat.deal.isSome
      let s := match x.spare with
        | some q =>
          let s := if s.rd (Reg.CORE_PWR q) 8 8 = 1 then s.settlePower q else s
          let s := s.showPlace q
          let st := if s.tblState = TS_HELD ∨ s.tblState = TS_STEPPING then CS_HELD else CS_STOPPED
          let s := s.setCoreState q st
          if copy then (s.copyVault x.retired q).copyCore x.retired q else s
        | none => s
      let s := if copy && !readable then s.flag Reg.TBL_SPARE_CTL 61 else s
      let fail := s.rd Reg.TBL_SPARE_CTL 61 61
      let new := s.rd Reg.TBL_SPARE_CTL 24 16
      let s := (s.wr Reg.TBL_SPARE_CTL 63 63 0).flag Reg.TBL_SPARE_CTL 62
      { s with boot := { s.boot with sparing := none } }.eventN 0x1F
        (fail * 2 ^ 61 + x.reason * 2 ^ 40 + new * 2 ^ 16 + x.retired.val) 0)

/-! ### Power-down (R34, R36, R439, R440, R442) -/

/-- The power-off is orderly: no trip, and every rail good until it begins (R379, R440). -/
def State.orderlyOff (s : State) : Bool := s.boot.thermtripN && s.rd Reg.PWR_RAIL_STAT 4 0 == 31

/-- An orderly power-off counts a cycle of each tower that is above 60 C and appends each count with its mark (R34, R36). -/
def State.markOff (s : State) : State :=
  let s := s.each allTowers fun s t =>
    let s := match tempOf (s.rd (Reg.THM_TEMP t) 15 0) with
      | some v => if 960 < v then s.countCycle t else s
      | none => s
    s.append [.wear t (s.rd (Reg.THM_BOND_CYCLES t) 31 0) true]
  { s with boot := { s.boot with orderly := true } }

/-- Everything but the hub loses its power: cores, vaults, links; the seat has no deal. -/
def State.goDark (s : State) : State :=
  let s := (s.leaveDeal.resetCores 15 false)
  let links := fun (a : Nat) => 0x02000000 ≤ a ∧ a < 0x02300000
  let s := { s with regs := s.regs.filter fun e => !decide (links e.1), links := Vector.replicate 48 Link.reset }
  let s := s.each allTowers fun s t => s.setPower t { s.towerPower t with good := 0 }
  { s.wr Reg.PWR_RAIL_STAT 4 1 0 with boot := { s.boot with clocks := false, sparing := none, resetting := 0 } }

/-- POWER_DOWN: PWR_GO or THERMTRIP_N is low, and the rails but VAUX are removed (R439). -/
def execPowerDown (s : State) : Out :=
  .next (if s.boot.pwrGo && s.boot.thermtripN then s
    else
      let s := (if s.orderlyOff then s.markOff else s).goDark
      { s with boot := { s.boot with pwrGo := false } })

/-- RESET_N_LOW: RESET_N has been low for 10 us; PWR_GO goes low (R440). -/
def execResetNLow (s : State) : Out := .next { s with boot := { s.boot with resetN := false, pwrGo := false } }

/-- REFCLK_LOSS: the root unlocks; PWR_RAIL_FAULT with no rail named, and the module powers down (R442). Without the root
the links carry no notice. -/
def execRefclkLoss (s : State) : Out :=
  .next (if !s.boot.pwrGo then s
    else { s with boot := { s.boot with refclk := false, clocks := false, pwrGo := false } }.eventN 0x44 0 0)

/-! ### Batches (R36, R405, R415, R419) -/

/-- LEDGER_BATCH_WRITE: the records that wait are signed and written as one batch; with no identity or while the processor
restarts they wait; a failed write leaves them waiting. Batches are written behind those in flash, a batch that failed
verification among them, so that a later bring-up ignores them too (DESIGN CHOICE, log entry 70: R38 does not say where what
is rediscovered goes). -/
def execLedgerBatchWrite (ok : Bool) (s : State) : Out :=
  .next (
    let l := s.boot.ledger
    if l.queue.isEmpty || !s.sec.identity || s.sec.restarting then s
    else if ok then { s with boot := { s.boot with ledger := { l with queue := [], batches := l.batches ++ [l.queue] } } }
    else s.eventN 0x63 (l.batches.length * 2 ^ 32 + 2) 0)

end Sys2Proof.Machine
end

