-- ==== Sys2Proof/Machine/Sec.lean ====
section
/-! DEFINITION. Identity, attestation and the management processor (18): recovery, firmware operations, SPDM, telemetry,
debug marks, the event log. -/

namespace Sys2Proof.Machine

/-! ### The processor's queue -/

/-- The first queued MGMT request of a kind, and the queue without it. -/
def takeReq (k : MgmtKind) : List MgmtReq → Option (MgmtReq × List MgmtReq)
  | [] => none
  | r :: rs => if r.kind = k then some (r, rs) else (takeReq k rs).map fun x => (x.1, r :: x.2)

/-- The processor answers the first queued request of a kind; one that restarts, or has none queued, does nothing. -/
def State.answer (s : State) (k : MgmtKind) (f : State → MgmtReq → State) : State :=
  if s.sec.restarting then s
  else match takeReq k s.sec.queue with
    | none => s
    | some (r, rs) => f (s.setQueue rs) r

/-- RSTATUS codes (R416). -/
abbrev RS_OK : Nat := 0
abbrev RS_STATE : Nat := 1
abbrev RS_FAILED : Nat := 6

/-! ### Firmware (R407 to R409, R415) -/

/-- RECOVERY_GO: in recovery an image is fetched and verified, and GO clears; one that passes is written to the preferred slot and starts.
Outside recovery the write is logged (R408). -/
def execRecoveryGo (image : Bool × BitVec 16) (s : State) : Out :=
  .next (if s.rd Reg.SEC_FW_STAT 7 4 ≠ 3 then s.access 0 Reg.SEC_RECOVERY_LEN
    else
      let s := (s.doneW1S Reg.SEC_RECOVERY_LEN 63).1
      let f := s.imageFault image
      if f = 0 then
        let s := { s with sec := { s.sec with images := s.sec.images + 1 } }
        s.startImage s.sec.preferred.val image.2.toNat
      else s.fwFail f 2)

/-- The slot that is not running. -/
def State.idleSlot (s : State) : Fin 2 := if s.rd Reg.SEC_FW_STAT 1 0 = 0 then 1 else 0

/-- FW_STAGE (R409): the image is verified into the slot not running; none where the read of host memory failed. -/
def execFwStage (image : Option (Bool × BitVec 16)) (s : State) : Out :=
  .next (s.answer .fwStage fun s r =>
    match image with
    | none => s.mgmtReply r RS_FAILED []
    | some x =>
      let f := s.imageFault x
      if f = 0 then ({ s with sec := { s.sec with staged := some (s.idleSlot, x.2.toNat) } }).mgmtReply r RS_OK []
      else (s.fwFail f s.idleSlot.val).mgmtReply r RS_FAILED [])

/-- The processor restarts: 1 by the watchdog, 2 by ACTIVATE (R415). -/
def State.restart (s : State) (cause : Nat) : State :=
  let s := { s with sec := { s.sec with restarting := true, committable := false } }
  let s := (s.wr Reg.SEC_FW_STAT 7 4 2).wr Reg.SEC_MGT_STAT 31 24 (s.rd Reg.SEC_MGT_STAT 31 24 + 1)
  s.eventN 0x70 cause 0

/-- FW_ACTIVATE (R409): the staged slot becomes preferred and the processor restarts. -/
def execFwActivate (s : State) : Out :=
  .next (s.answer .fwActivate fun s r =>
    match s.sec.staged with
    | none => s.mgmtReply r RS_STATE []
    | some (slot, _) =>
      let s := s.mgmtReply r RS_OK []
      { s with sec := { s.sec with preferred := slot, staged := none, activated := true, images := s.sec.images + 1 } }.restart 2)

/-- FW_COMMIT (R409): the counter is raised to the running image's SVN, once the image has run for 60 s. -/
def execFwCommit (s : State) : Out :=
  .next (s.answer .fwCommit fun s r =>
    if !s.sec.committable then s.mgmtReply r RS_STATE []
    else
      let n := max s.sec.counter (s.rd Reg.SEC_FW_STAT 47 32)
      let s := { s with sec := { s.sec with counter := n, committable := false, activated := false } }
      ((s.wr Reg.SEC_FW_STAT 31 16 n).wr Reg.SEC_FW_STAT 7 4 1).mgmtReply r RS_OK [])

/-- FW_COMMITTABLE: the image started by ACTIVATE has run for 60 s. -/
def execFwCommittable (s : State) : Out :=
  .next (if s.sec.activated && !s.sec.restarting && s.rd Reg.SEC_FW_STAT 7 4 == 1 then
      { s.wr Reg.SEC_FW_STAT 7 4 4 with sec := { s.sec with committable := true } }
    else s)

/-- MGT_RESTART: the watchdog restarts the processor (R415); an image started by ACTIVATE that has not run for 60 s is
abandoned for the other slot (R409). -/
def execMgtRestart (s : State) : Out :=
  .next (
    let x := s.sec
    let s := if x.activated && !x.committable then
        { s with sec := { x with preferred := if x.preferred = 0 then 1 else 0, activated := false } }
      else s
    s.restart 1)

/-! ### SPDM (R410 to R412) -/

/-- A measurement block's value (R411). -/
def State.measure (s : State) (i : Nat) : List Byte :=
  match i with
  | 1 => Config.spdmDigest 1 0
  | 2 => Config.spdmDigest 2 s.sec.images
  | 3 => leBytes 8 (s.rd Reg.SEC_FW_STAT 1 0 * 2 ^ 32 + s.rd Reg.SEC_FW_STAT 31 16 * 2 ^ 16 + s.rd Reg.SEC_FW_STAT 47 32)
  | 4 => Config.spdmDigest 4 0
  | 5 => Config.ledgerDigest s.boot.ledger.batches
  | 6 => match s.seat.deal with | some d => d.digest | none => List.replicate 64 0
  | 7 => leBytes 8 (s.reg Reg.SEC_DEBUG).toNat
  | 8 => [0xB0] ++ leBytes 8 (s.reg Reg.TBL_FORM).toNat ++
      (List.finRange 8).flatMap fun d => (List.range 4).flatMap fun k => leBytes 8 (s.reg (Reg.TBL_CORE_MAP d k)).toNat
  | _ => []

/-- Blocks by index. -/
def State.blocks (s : State) (is : List Nat) : List (Nat × List Byte) := is.map fun i => (i, s.measure i)

/-- The signature of the next signed answer. -/
def State.signature (s : State) : List Byte := Config.spdmSignature s.sent.length

/-- An answer leaves: over SMBus, or as the reply to the first queued SPDM request; a request that arrives while another is
being answered gets Busy (R410). -/
def State.spdm (s : State) (smbus busy : Bool) (a : SpdmAnswer) : State :=
  let a := if busy then .error .busy else a
  if smbus then (if s.sec.restarting then s else s.send (.spdm a))
  else s.answer .spdm fun s r => (s.send (.spdm a)).mgmtReply r RS_OK (Config.spdmBytes a)

/-- An answer that needs a signature: Unspecified without an identity (R405). -/
def State.signed (s : State) (a : SpdmAnswer) : SpdmAnswer := if s.sec.identity then a else .error .unspecified

/-- GET_VERSION. -/
def execGetVersion (smbus busy : Bool) (s : State) : Out := .next (s.spdm smbus busy (.version [(1, 2), (1, 3)]))

/-- GET_CAPABILITIES. -/
def execGetCapabilities (smbus busy : Bool) (s : State) : Out :=
  .next (s.spdm smbus busy (.capabilities true true 2 true 16 40960 40960))

/-- NEGOTIATE_ALGORITHMS: a requester that selects no offered algorithm gets InvalidRequest. -/
def execNegotiateAlgorithms (smbus busy offered : Bool) (s : State) : Out :=
  .next (s.spdm smbus busy (if offered then .algorithms else .error .invalidRequest))

/-- GET_DIGESTS. -/
def execGetDigests (smbus busy : Bool) (s : State) : Out := .next (s.spdm smbus busy (.digests Config.chainHash))

/-- GET_CERTIFICATE: slot 0 only. -/
def execGetCertificate (smbus busy : Bool) (slot : BitVec 4) (s : State) : Out :=
  .next (s.spdm smbus busy (if slot = 0 then .certificate Config.certChain else .error .invalidRequest))

/-- SPDM_CHALLENGE: summary 0 none, 1 TCB, 2 all. -/
def execSpdmChallenge (smbus busy : Bool) (slot : BitVec 4) (summary : Fin 3) (context : BitVec 64) (s : State) : Out :=
  .next (
    let sum := if summary = 0 then [] else Config.summaryHash (s.blocks (if summary = 1 then [1, 2, 3, 4, 7] else [1, 2, 3, 4, 5, 6, 7, 8]))
    let a := if slot = 0 then s.signed (.challengeAuth Config.chainHash sum (leBytes 8 context.toNat) s.signature)
      else .error .invalidRequest
    s.spdm smbus busy a)

/-- GET_MEASUREMENTS: one index of R411, or 0xFF for all; 0 asks for their number and gets no block. -/
def execGetMeasurements (smbus busy : Bool) (index : Byte) (sign : Bool) (s : State) : Out :=
  .next (
    let i := index.toNat
    let a := if i = 0xFF ∨ i ≤ 8 then
        let bs := s.blocks (if i = 0xFF then [1, 2, 3, 4, 5, 6, 7, 8] else if i = 0 then [] else [i])
        if sign then s.signed (.measurements bs s.signature) else .measurements bs []
      else .error .invalidRequest
    s.spdm smbus busy a)

/-! ### Telemetry (R416, R417) -/

/-- The PLDM sensors in order: the fields of THM_TEMP and PWR_EST, RATIO and the phase count of each tower, then the link
states. -/
def State.readSensors (s : State) : List W64 :=
  (allTowers.flatMap fun t =>
    [s.rd (Reg.THM_TEMP t) 15 0, s.rd (Reg.THM_TEMP t) 31 16, s.rd (Reg.THM_TEMP t) 47 32, s.rd (Reg.THM_TEMP t) 63 48,
     s.rd (Reg.PWR_EST t) 15 0, s.rd (Reg.PWR_EST t) 47 32, s.rd (Reg.PWR_EST t) 63 48, s.rd (Reg.THM_COOL t) 63 48,
     s.failedPhases t].map (BitVec.ofNat 64)) ++ allLinks.map fun l => BitVec.ofNat 64 (s.linkState l)

/-- PLDM_SAMPLE: the sensors are sampled, or the sample is dropped and counted (R417). -/
def execPldmSample (done : Bool) (s : State) : Out :=
  .next (if done && !s.sec.restarting then { s with sec := { s.sec with sensors := s.readSensors } }
    else
      let s := s.count Reg.SEC_MGT_STAT 63 48 1
      let recent := match s.sec.overloadAt with | some n => decide (s.now < n + 100000000) | none => false
      if recent then s
      else { s with sec := { s.sec with overloadAt := some s.now } }.eventN 0x71
        (s.rd Reg.SEC_MGT_STAT 63 48 * 2 ^ 16 + s.rd Reg.SEC_MGT_STAT 47 32) 0)

/-- TELEMETRY_SNAPSHOT: the latest samples as 8-byte values (R416). -/
def execTelemetrySnapshot (s : State) : Out :=
  .next (s.answer .telemetry fun s r => s.mgmtReply r RS_OK (s.sec.sensors.flatMap fun w => leBytes 8 w.toNat))

/-! ### Debug (R413) -/

/-- TAP_INSTRUCTION: any instruction but BYPASS and IDCODE sets MARK, counts a session and raises SEC_DEBUG_SESSION. -/
def execTapInstruction (op : TapOp) (s : State) : Out :=
  .next (
    let s := { s with sec := { s.sec with tap := op } }
    if op = .bypass ∨ op = .idcode then s
    else
      let s := (s.wr Reg.SEC_DEBUG 63 63 1).count Reg.SEC_DEBUG 31 0 1
      s.eventN 0x62 (s.rd Reg.SEC_DEBUG 31 0) 0)

/-! ### The event log (R418) -/

/-- The interrupt message while records are unread, at most once in 10 us. -/
def State.logIrq (s : State) : State :=
  let recent := match s.sec.irqAt with | some n => decide (s.now < n + 1000) | none => false
  if s.rd Reg.SEC_EVTLOG_CTL 0 0 = 1 ∧ s.rd Reg.SEC_EVTLOG_PTR 63 32 ≠ s.rd Reg.SEC_EVTLOG_PTR 31 0 ∧ recent = false then
    { s with sec := { s.sec with irqAt := some s.now } }.send (.irq (s.rd Reg.SEC_EVTLOG_CTL 11 8))
  else s

/-- A full log loses its oldest record: CONS advances, OVERRUN counts, MGT_LOG_OVERRUN at most once per second (R419). -/
def State.logOverrun (s : State) : State :=
  let prod := s.rd Reg.SEC_EVTLOG_PTR 63 32
  let cons := s.rd Reg.SEC_EVTLOG_PTR 31 0
  if (prod + 2 ^ 32 - cons) % 2 ^ 32 < 4096 then s
  else
    let s := ((s.wr Reg.SEC_EVTLOG_PTR 31 0 (cons + 1)).protect Reg.SEC_EVTLOG_PTR 0xFFFFFFFF).count Reg.SEC_EVTLOG_CTL 63 32 1
    let recent := match s.sec.overrunAt with | some n => decide (s.now < n + 100000000) | none => false
    if recent then s
    else { s with sec := { s.sec with overrunAt := some s.now } }.eventN 0x72 (s.rd Reg.SEC_EVTLOG_CTL 63 32) 0

/-- An event of the classes 0x40 to 0x4F and 0x60 to 0x6F also goes to the fleet manager as a PLDM platform event (18, duty 3
of the processor); while the processor restarts it waits (R417). -/
def State.alert (s : State) (r : Record) : State :=
  let k := r.code.toNat / 16
  if k ≠ 4 ∧ k ≠ 6 then s
  else if s.sec.restarting then { s with sec := { s.sec with alerts := s.sec.alerts ++ [r] } }
  else s.send (.pldmEvent r)

/-- EVENT_LOG_RECORD: the oldest record on its way is written at PROD mod 4,096. -/
def execEventLogRecord (s : State) : Out :=
  .next (match s.hubQueue with
    | [] => s
    | r :: rest =>
      let s := ({ s with hubQueue := rest }).logOverrun
      let prod := s.rd Reg.SEC_EVTLOG_PTR 63 32
      let s := (r.words.mapIdx fun w x => (w, x)).foldl (fun (s : State) (y : Nat × W64) => s.setReg (Reg.SEC_EVTLOG prod y.1) y.2) s
      ((s.wr Reg.SEC_EVTLOG_PTR 63 32 (prod + 1)).alert r).logIrq)

/-- EVENT_LOG_CONS_WRITE: CONS beyond PROD, or behind PROD - 4,096, is logged without effect; where the hub has advanced CONS in
the same cycle, the larger value is kept (R418). -/
def execEventLogConsWrite (v : BitVec 32) (s : State) : Out :=
  .next (
    let prod := s.rd Reg.SEC_EVTLOG_PTR 63 32
    let cons := s.rd Reg.SEC_EVTLOG_PTR 31 0
    let behind := (prod + 2 ^ 32 - v.toNat) % 2 ^ 32
    if behind ≤ 4096 then
      if (prod + 2 ^ 32 - cons) % 2 ^ 32 < behind ∧ s.guardedAt Reg.SEC_EVTLOG_PTR ≠ 0 then s
      else s.wr Reg.SEC_EVTLOG_PTR 31 0 v.toNat
    else if behind ≤ 8192 ∧ s.guardedAt Reg.SEC_EVTLOG_PTR ≠ 0 then s
    else s.access 0 Reg.SEC_EVTLOG_PTR)

end Sys2Proof.Machine
end

