-- ==== Sys2Proof/Machine/Pmu.lean ====
section
/-! DEFINITION. Performance monitoring (19): armed actions and sample records. Counting itself stands with the operations it
counts, and in the tick of Tick.lean. -/

namespace Sys2Proof.Machine

/-! ### Armed actions (R425 to R427, R431) -/

/-- PMU_ARM: ARM is written with an ACTION (R426). Refused where TICK is no multiple of 5 or ARM is set; missed where the
tick has come; ACTION 0 leaves ARM alone. -/
def execPmuArm (action : BitVec 2) (s : State) : Out :=
  .next (
    let t := (s.reg Reg.PMU_ARM_TICK).toNat
    if t % 5 ≠ 0 ∨ bit (s.reg Reg.PMU_ARM_CTL) 4 = true then s.access 0 Reg.PMU_ARM_CTL
    else
      let s := s.wr Reg.PMU_ARM_CTL 1 0 action.toNat
      if action = 0 then s
      else if t ≤ s.now then (s.flag Reg.PMU_ARM_CTL 7).eventN 0x73 (4 + action.toNat) 0
      else s.wr Reg.PMU_ARM_CTL 4 4 1)

/-- An armed action is taken at its tick: the counts of every cycle before it are in, ARM clears, DONE is set, PMU_ACTION is
raised. -/
def State.takeAction (s : State) (action : Nat) (f : State → State) : State :=
  if bit (s.reg Reg.PMU_ARM_CTL) 4 && s.rd Reg.PMU_ARM_CTL 1 0 == action then
    let s := (s.each allCores State.flushIssue).atTick (s.reg Reg.PMU_ARM_TICK)
    (((f s).doneW1S Reg.PMU_ARM_CTL 4).1.flag Reg.PMU_ARM_CTL 6).eventN 0x73 action 0
  else s

/-- PMU_FREEZE. -/
def execPmuFreeze (s : State) : Out := .next (s.takeAction 1 fun s => s.wr Reg.PMU_CTL 1 1 1)

/-- PMU_UNFREEZE. -/
def execPmuUnfreeze (s : State) : Out := .next (s.takeAction 3 fun s => s.wr Reg.PMU_CTL 1 1 0)

/-- The counters of a core and their sticky register copied to their shadows. -/
def State.shadowCore (s : State) (p : PCore) : State :=
  let s := s.each (List.range 16) fun s i => s.setReg (Reg.PMU_FIXED_SHADOW p i) (s.reg (Reg.PMU_FIXED p i))
  let s := s.each (List.range 8) fun s k => s.setReg (Reg.PMU_PROG_SHADOW p k) (s.reg (Reg.PMU_PROG p k))
  s.setReg (Reg.PMU_OVF_SHADOW p) (s.reg (Reg.PMU_OVF p))

/-- Every counter and both sticky registers copied, and the position latched (R425). -/
def State.snapshot (s : State) : State :=
  let s := s.each allCores State.shadowCore
  let s := s.each (List.range 8) fun s k => s.setReg (Reg.PMU_GCNT_SHADOW k) (s.reg (Reg.PMU_GCNT k))
  let s := s.setReg Reg.PMU_GOVF_SHADOW (s.reg Reg.PMU_GOVF)
  let s := s.setReg Reg.PMU_SNAP_POS (BitVec.ofNat 64 (s.seat.trick.toNat * 2 ^ 40 + s.rubber))
  s.setReg Reg.PMU_SNAP_POS_HI (BitVec.ofNat 64 (s.attempt * 2 ^ 56 + s.tblState * 2 ^ 24 + s.seat.cycle.toNat))

/-- PMU_SNAPSHOT. -/
def execPmuSnapshot (s : State) : Out := .next (s.takeAction 2 State.snapshot)

/-! ### Sample records (R429, R430) -/

/-- The four words of a sample record (R430). -/
def Sample.words (t : Sample) (latency : BitVec 24) (flags : BitVec 5) : List W64 :=
  [t.tag,
   BitVec.ofNat 64 (t.tcycle.toNat * 2 ^ 40 + t.slot.toNat * 2 ^ 38 + t.op.toNat * 2 ^ 30 +
     (if t.addr = 0 then 0 else t.space.toNat) * 2 ^ 28 + t.bundle.toNat),
   t.addr,
   BitVec.ofNat 64 (t.attempt.toNat * 2 ^ 56 + latency.toNat * 2 ^ 32 + t.xq * 2 ^ 16 + flags.toNat)]

/-- A record is written, or lost where 256 are unread (R429). -/
def State.writeSample (s : State) (p : PCore) (ws : List W64) : State :=
  let prod := s.rd (Reg.PMU_SAMPLE_PTR p) 63 32
  let cons := s.rd (Reg.PMU_SAMPLE_PTR p) 31 0
  if 256 ≤ (prod + 2 ^ 32 - cons) % 2 ^ 32 then (s.count (Reg.PMU_SAMPLE_STAT p) 63 48 1).flag (Reg.PMU_OVF p) 24
  else
    let s := (ws.mapIdx fun w x => (w, x)).foldl (fun (s : State) (y : Nat × W64) => s.setReg (Reg.PMU_SAMPLES p prod y.1) y.2) s
    s.wr (Reg.PMU_SAMPLE_PTR p) 63 32 (prod + 1)

/-- SAMPLE_COMPLETE: the tagged instruction of a core completes, with its latency and the FLAGS of R430. -/
def execSampleComplete (c : PCore) (latency : BitVec 24) (flags : BitVec 5) (s : State) : Out :=
  .next (match (s.core c).sample with
    | none => s
    | some t =>
      let s := (s.setCore c { s.core c with sample := none }).wr (Reg.PMU_SAMPLE_STAT c) 0 0 0
      if latency.toNat < s.rd (Reg.PMU_SAMPLE_CTL c) 47 24 then s.count (Reg.PMU_SAMPLE_STAT c) 31 16 1
      else s.writeSample c (t.words latency flags))

/-- SAMPLE_CONS_WRITE: CONS beyond PROD, or behind PROD - 256, is logged without effect. -/
def execSampleConsWrite (c : PCore) (v : BitVec 32) (s : State) : Out :=
  .next (
    let prod := s.rd (Reg.PMU_SAMPLE_PTR c) 63 32
    if (prod + 2 ^ 32 - v.toNat) % 2 ^ 32 ≤ 256 then s.wr (Reg.PMU_SAMPLE_PTR c) 31 0 v.toNat
    else s.access 0 (Reg.PMU_SAMPLE_PTR c))

end Sys2Proof.Machine
end

