-- ==== Sys2Proof/Machine/Control.lean ====
section
/-! DEFINITION. The control aperture (00_scope.md R3 to R8; 14 R318): host and debug writes to control registers, with the
conditions that each register's own rule puts on them, and host reads. -/

namespace Sys2Proof.Machine

/-- Bits of a register cleared by a write of 1, but those that hardware has set in the same cycle (R5, R6). -/
def State.clear1 (s : State) (a : Nat) (m : W64) : State := s.setReg a (s.reg a &&& ~~~ (m &&& ~~~ s.guardedAt a))

/-- Bits of a register set by a write of 1; those that were 1 already hold it against a completion in the same cycle (R5,
R7). -/
def State.set1 (s : State) (a : Nat) (m : W64) : State := (s.setReg a (s.reg a ||| m)).protect a (s.reg a &&& m)

/-- A write by access types alone (R5 to R7), after which the counters of the register count what they have counted in the
same cycle (R199, R424). -/
def State.plain (s : State) (a : Nat) (row : RegRow) (v : W64) : State :=
  let v := v &&& ~~~ (rangesMask row.w1c &&& s.guardedAt a)
  (s.added.filter fun b => b.reg == a).foldl State.addTo
    ((s.protect a (s.reg a &&& v &&& rangesMask row.w1s)).setReg a (row.write (s.reg a) v))

/-! ### By block; `v` is the value of all 64 bits -/

/-- TBL_RESET (R388): TEST is stored; each reset asked for begins, but one that runs already (R7). -/
def State.writeReset (s : State) (v : W64) : State :=
  let s := s.wr Reg.TBL_RESET 7 6 (fld v 7 6)
  s.askReset (v &&& 0x1F)

/-- TBL_SPARE_CTL (R392): DONE and FAIL clear; GO asks for a sparing. -/
def State.writeSpare (s : State) (row : RegRow) (v : W64) : State :=
  if bit v 9 then
    let s := s.clear1 Reg.TBL_SPARE_CTL (v &&& fldMask 64 62 61)
    afterOut (execSpareGo (v.setWidth 9) (BitVec.ofNat 8 (fld v 55 48)) (bit v 40) s) s
  else s.plain Reg.TBL_SPARE_CTL row v

/-- Global control. -/
def State.writeGlobal (s : State) (a : Nat) (row : RegRow) (v : W64) : State :=
  if 0x100000 ≤ a then s.seqWrite a v
  else if a = Reg.TBL_FORM then afterOut (execTblFormWrite v s) s
  else if a = Reg.TBL_RESET then s.writeReset v
  else if a = Reg.TBL_SPARE_CTL then s.writeSpare row v
  else s.plain a row v

/-- The tower of an offset among per-tower registers 0x40 apart. -/
def towerAt (o : Nat) : Tower := ⟨o / 0x40 % 4, Nat.mod_lt _ (by decide)⟩

/-- Power and thermal (R341, R344, R353, R374, R375, R378). -/
def State.writePower (s : State) (a : Nat) (row : RegRow) (v : W64) : State :=
  let o := a - powerBase
  let t := towerAt o
  if 0x100 ≤ o ∧ o < 0x200 then
    match o % 0x40 with
    | 0x10 => (s.plain a row v).applyBubble t
    | 0x18 => afterOut (execPhaseFailClear t (v.setWidth 22) s) s
    | 0x20 => afterOut (execAnteWrite t (BitVec.ofNat 8 (fld v 23 16)) s) s
    | _ => s.plain a row v
  else if 0x1000 ≤ o ∧ o < 0x1100 then
    match o % 0x40 with
    | 0x28 =>
      let s := s.plain a row v
      if fld v 31 16 = 0 then (s.wr a 63 48 0).setHeat t { s.towerHeat t with learned := [] } else s
    | 0x38 => if bit v 2 then afterOut (execThmStopClear t s) s else s
    | _ => s.plain a row v
  else if a = Reg.THM_COOLANT then
    afterOut (execCoolantWrite (v.setWidth 16) (BitVec.ofNat 16 (fld v 31 16)) (BitVec.ofNat 16 (fld v 47 32)) s) s
  else s.plain a row v

/-- A link: ENABLE and RETRAIN act (R276, R278). -/
def State.writeLink (s : State) (a : Nat) (row : RegRow) (v : W64) : State :=
  let l : LinkIx := ⟨(a - 0x02000000) / 0x10000 % 48, Nat.mod_lt _ (by decide)⟩
  if a = Reg.LNK_CTL l then
    let s := (s.plain a row ((v &&& ~~~ (0x9 : W64)) ||| (s.reg a &&& 0x1))).set1 a (v &&& 0x8)
    if !bit v 0 then afterOut (execLinkDisable l s) s
    else
      let s := s.linkEnable l
      if bit v 3 then afterOut (execRetrain l s) s else s
  else s.plain a row v

/-- Host interfaces (R335, R338, R381). -/
def State.writeHost (s : State) (a : Nat) (row : RegRow) (v : W64) : State :=
  if a = Reg.HST_SUBQ then
    if bit (s.reg a) 5 then s.access 0 a
    else if bit v 5 && decide (s.stage < 9 ∨ s.stage = 0xE) then s.access 0 a
    else if bit v 5 then
      let s := (s.plain a row v).setReg Reg.HST_SUBQ_CONS 0
      if s.tlUp then s.holdWatched else s
    else s.plain a row v
  else if a = Reg.HST_SUBQ_WATCH then (if bit (s.reg Reg.HST_SUBQ) 5 then s.access 0 a else s.plain a row v)
  else if a = Reg.HST_CPLQ then
    if bit (s.reg a) 6 then s.access 0 a
    else if bit v 6 then (((s.plain a row v).wr Reg.HST_CPLQ_PTR 63 32 0).flushCompletions).engineOn
    else s.plain a row v
  else if a = Reg.HST_CPLQ_PTR then ((s.plain a row v).flushCompletions).engineOn
  else if a = Reg.HST_CX_EGR ∧ s.dealRuns = true ∧ bit v 63 ≠ bit (s.reg a) 63 then
    (s.plain a row (setFld v 63 63 (s.rd a 63 63))).access 0 a
  else s.plain a row v

/-- Management and security (R408, R418). -/
def State.writeSec (s : State) (a : Nat) (row : RegRow) (v : W64) : State :=
  if a = Reg.SEC_EVTLOG_PTR then afterOut (execEventLogConsWrite (v.setWidth 32) s) s
  else if a = Reg.SEC_RECOVERY ∨ a = Reg.SEC_RECOVERY_LEN then
    (if s.rd Reg.SEC_FW_STAT 7 4 = 3 then s.plain a row v else s.access 0 a)
  else s.plain a row v

/-- Global performance monitor (R426). -/
def State.writePmu (s : State) (a : Nat) (row : RegRow) (v : W64) : State :=
  if a = Reg.PMU_ARM_CTL ∧ bit v 4 = true then
    let s := (s.clear1 a (v &&& fldMask 64 7 6)).protect a (s.reg a &&& 0x10)
    afterOut (execPmuArm (v.setWidth 2) s) s
  else s.plain a row v

/-- MEM_CE_THRESHOLD and IB_CE_THRESHOLD are armed by a write that leaves CE below the threshold (R197, R215). -/
def State.rearm (s : State) (p : PCore) : State :=
  let c := s.core p
  let mem := decide (s.rd (Reg.VLT_ERR_CNT p) 31 16 < s.rd (Reg.VLT_CFG p) 23 8)
  let ib := decide (s.rd (Reg.IB_ERR_CNT p) 15 0 < s.rd (Reg.IB_CFG p) 31 16)
  s.setCore p { c with vault := { c.vault with ceArmed := c.vault.ceArmed || mem }, ib := { c.ib with armed := c.ib.armed || ib } }

/-- A core's blocks (R193, R216, R220, R358, R429); `m` is the mask of the bits that the access writes. -/
def State.writeCore (s : State) (p : PCore) (a : Nat) (row : RegRow) (m v : W64) : State :=
  if a = Reg.CORE_PWR p then
    if !bit m 0 then s
    else
      if fld v 1 0 = 0 then s.wantOn p else s.wantRest p (fld v 1 0)
  else if a = Reg.VLT_TEST_CTL p then
    (if bit m 2 then s.testCtl p (bit v 2) (fld v 56 32) (fld v 1 0) else s.wr a 56 32 (fld v 56 32))
  else if a = Reg.VLT_ERR_CNT p ∨ a = Reg.VLT_CFG p ∨ a = Reg.IB_ERR_CNT p ∨ a = Reg.IB_CFG p then (s.plain a row v).rearm p
  else if a = Reg.IB_KV_CFG p then afterOut (execKvLayoutWrite p false v s) s
  else if a = Reg.IB_KV_TOK p then afterOut (execKvLayoutWrite p true v s) s
  else if a = Reg.IB_TAB_VALID p ∨ (ibBase p + 0x8000 ≤ a ∧ a < ibBase p + 0x10000) then s.tableWrite p a v
  else if a = Reg.PMU_SAMPLE_PTR p then afterOut (execSampleConsWrite p (v.setWidth 32) s) s
  else s.plain a row v

/-! ### Accesses (R4, R5, R77, R318) -/

/-- The physical core whose block holds a control address. -/
def coreAt (a : Nat) : PCore := ⟨(a - 0x100000000) / 0x100000 % 272, Nat.mod_lt _ (by decide)⟩

/-- The increments of this cycle but those of a register's fields outside a mask. -/
def State.within (s : State) (a : Nat) (m : W64) : State :=
  { s with added := s.added.filter fun b => b.reg != a || bit m b.lo }

/-- A register is written with the bits of `m` from `v`; RW bits of the other half keep what they hold. -/
def State.writeBits (s : State) (a : Nat) (m v : W64) : State :=
  match regRow a with
  | none => s.access 0 a
  | some row =>
    if row.readOnlyLogged then s.access 0 a
    else
      let held := if 0x100000 ≤ a ∧ a < 0x01000000 then s.seqRead a else s.reg a
      let v := (v &&& m) ||| (held &&& rangesMask row.rw &&& ~~~ m)
      if a < 0x01000000 then s.writeGlobal a row v
      else if a < 0x02000000 then s.writePower a row v
      else if a < 0x02300000 then s.writeLink a row v
      else if a < 0x04000000 then s.writeHost a row v
      else if a < 0x05000000 then s.writeSec a row v
      else if a < 0x06000000 then s.writePmu a row v
      else s.writeCore (coreAt a) a row m v

/-- A register is written with the bits of `m` from `v`; of the counters of the register only those in `m` take the
increments of the cycle again (R199). -/
def State.writeReg (s : State) (a : Nat) (m v : W64) : State :=
  let r := (s.within a m).writeBits a m v
  { r with added := s.added ++ r.added.drop (s.within a m).added.length }

/-- A control access of a size at an address keeps R4: 64 bits of a register or 32 bits of an aligned half. -/
def accessOk (a size : Nat) : Bool := (size == 8 || size == 4) && a % size == 0

/-- A write through the control aperture: the hand-store window in the states of R77, a register, or an access that is
logged (R3, R4, R318). -/
def State.controlWrite (s : State) (a size : Nat) (v : W64) : State :=
  if !accessOk a size then s.access 0 a
  else match handWindow a with
    | some (p, o) =>
      if s.tableOpen p then s.setCore p { s.core p with hand := (s.core p).hand.storeNum o size v.toNat } else s.access 0 a
    | none =>
      let b := a / 8 * 8
      if (regRow b).isNone then s.access 0 a
      else if size = 8 then s.writeReg b (BitVec.allOnes 64) v
      else if a = b then s.writeReg b 0xFFFFFFFF v
      else s.writeReg b 0xFFFFFFFF00000000 (v <<< 32)

/-- REGISTER_WRITE: the host writes a control register. No access arrives while Turelink is down (R316). -/
def execRegisterWrite (a : W64) (size : Nat) (v : W64) (s : State) : Out :=
  .next (if s.tlUp then s.controlWrite a.toNat size v else s)

/-- CORE_ARR_STAT of a logical array (07 "Array registers"): PHYS and CLASS read a and 7 while the core neither runs nor is
held. -/
def State.arrStat (s : State) (p : PCore) (a : Nat) : W64 :=
  let st := s.coreState p
  let rest := st == CS_STOPPED || st == CS_OFF || st == CS_SPARE || st == CS_RETIRED
  let x := s.arr p a
  let quad := bit x.cfg 54
  let feed := fun (q : Fin 4) => (x.feeders[q.val]).length
  let mpre := match x.queue.find? fun c => !c.isPort with | some c => c.op == .mpre | none => false
  BitVec.ofNat 64 ((if quad then feed 3 * 2 ^ 52 + feed 2 * 2 ^ 46 + feed 1 * 2 ^ 40 else 0) + feed 0 * 2 ^ 33
    + (if rest then a else (s.physArr a).val) * 2 ^ 30 + ofBool quad * 2 ^ 29 + ofBool (bit x.cfg 53) * 2 ^ 28
    + ofBool (bit x.cfg 42) * 2 ^ 27 + ofBool (x.drain.isSome || mpre) * 2 ^ 26 + x.queue.length * 2 ^ 23
    + (if rest then 7 else x.cls[0].val))

/-- The 64 bits that an aligned control address shows; none where no register is defined (R3) or the read is refused (R77,
R196, R216). -/
def State.shown (s : State) (b : Nat) : Option W64 :=
  let o := (b - 0x100000000) % 0x100000
  if (regRow b).isNone then none
  else if 0x100000 ≤ b ∧ b < 0x01000000 then some (s.seqRead b)
  else if b < 0x100000000 then some (s.reg b)
  else if 0x28000 ≤ o ∧ o < 0x30000 then (if s.tableOpen (coreAt b) then some (s.reg b) else none)
  else if 0x300 ≤ o ∧ o < 0x330 then some (s.arrStat (coreAt b) (o / 8 - 0x60))
  else some (s.reg b)

/-- A host read of a size at a control address (R4, R5, R77, R318): the state after it, and the value. A refused read reads
zero and is logged (R339). -/
def State.controlRead (s : State) (a size : Nat) : State × W64 :=
  if !accessOk a size then (s.access 0 a, 0)
  else match handWindow a with
    | some (p, o) =>
      if s.tableOpen p then (s, BitVec.ofNat 64 ((s.core p).hand.num o size)) else (s.access 0 a, 0)
    | none =>
      match s.shown (a / 8 * 8) with
      | none => (s.access 0 a, 0)
      | some w => (s, if size = 8 then w else if a % 8 = 0 then w &&& 0xFFFFFFFF else w >>> 32)

/-! ### Debug writes (R414) -/

/-- DEBUG_WRITE: a debug write to the per-core or global control blocks, or a debug halt of a core, which in the states that
let it act leaves a core that runs nothing. In other states it is counted in DENIED. -/
def execDebugWrite (halt : Option PCore) (a : W64) (size : Nat) (v : W64) (s : State) : Out :=
  .next (
    if !s.inState [TS_EMPTY, TS_LOADED, TS_STOPPED] then s.count Reg.SEC_DEBUG 47 32 1
    else match halt with
      | some _ => s
      | none => if a.toNat < 0x01000000 ∨ 0x100000000 ≤ a.toNat then s.controlWrite a.toNat size v else s)

end Sys2Proof.Machine
end

