-- ==== Sys2Proof/Machine/Tick.lean ====
section
/-! DEFINITION. What one CLK_CORE cycle does whatever is commanded: the slot and idle counts of 19 (R420 to R423), bubbles
(15 R348, R353, R354), table time and the trick cycle (R240, R241). The step takes it on an empty queue. -/

namespace Sys2Proof.Machine

/-! ### Idle cycles (R84, R421, R422) -/

/-- The fixed counter of a cause (19 "Slots and idle cycles"). -/
def Idle.counter : Idle → Nat
  | .bubble => 6
  | .transfer => 7
  | .barrier => 8
  | .collective => 9
  | .receive => 10
  | .schedule => 11
  | .rubberEnd => 12
  | .array => 13
  | .register => 14
  | .xferQueue => 15

/-- The cause of a cycle without issue, the first that applies of R84. A bundle in the hand store that could issue, but of which
no command has come, waits for a register (log entry 8). -/
def State.idleCause (s : State) (p : PCore) : Idle :=
  let c := s.core p
  if s.bubble p then .bubble
  else if c.owed ≠ 0 then .transfer
  else if c.ended then .rubberEnd
  else match c.waiting, s.readyOf p with
    | some w, _ => w.cause
    | none, some w => (s.stall p 4 (c.bundleWords c.next) none w).getD .register
    | none, none => .register

/-- A counted cycle without issue: CYCLES, four slots front-starved or back-starved, one idle counter (R421, R422). -/
def State.idleCycle (s : State) (p : PCore) : State :=
  let cause := s.idleCause p
  ((s.fixed p 0 1).fixed p (if cause = .transfer then 4 else 5) 4).fixed p cause.counter 1

/-- The hand store's next bundle is four no-operations and issues in this cycle (R70): it needs no command. -/
def State.passes (s : State) (p : PCore) : Bool :=
  let c := s.core p
  s.canIssue { core := p, lead := true } && !s.bubble p && c.waiting.isNone && decide (c.next ≤ 8191)
    && (c.bundleWords c.next).all (· == 0)

/-- A running core at the end of a cycle: what issued is counted, or why nothing did; a bundle that could not issue is ready
from this cycle on. -/
def State.coreCycle (s : State) (p : PCore) : State :=
  if (s.core p).slotMask.isSome then s.flushIssue p
  else if s.passes p then (s.beginBundle p []).flushIssue p
  else
    let s := s.idleCycle p
    let c := s.core p
    s.setCore p { c with owed := c.owed - 1,
                         readySince := if c.owed = 0 then some (c.readySince.getD s.seat.trick) else c.readySince }

/-- Any core at the end of a cycle: the entries that its transfer queue holds (R423), those that leave it (R447), and the slices
whose units were active (09 IB_STAT). -/
def State.queueCycle (s : State) (p : PCore) : State :=
  let c := s.core p
  let s := if c.entries = 0 then s else (s.pmu p 0x32 fun _ => c.entries).portCycle p
  if c.ib.active = 0 ∧ s.rd (Reg.IB_STAT p) 7 0 = 0 then s
  else
    (s.wr (Reg.IB_STAT p) 7 0 c.ib.active.toNat).setCore p { s.core p with ib := { (s.core p).ib with active := 0 } }

/-- The arrays of a core that holds a rubber at the end of a cycle (R162). -/
def State.arrayCycle (s : State) (p : PCore) : State := s.each (List.range 6) fun s a => s.arrCycle p a

/-! ### Clocks -/

/-- The blocks that the engines hold, counted in each cycle of CLK_FAB, one in two of CLK_CORE at every clock (R17, R423). -/
def State.fabCycle (s : State) : State :=
  if s.windowRoot / (2 * s.rootCycles) = (s.windowRoot + s.rootCycles) / (2 * s.rootCycles) then s
  else s.gpmu 0x85 fun q => (allEngines.map fun e => q / 2 ^ e.val % 2 * (s.engine e).occupied).sum

/-- Table time after one cycle of CLK_CORE: 96 root cycles are a tick (R240, R241). -/
def State.passTime (s : State) : State :=
  let ph := s.seat.phase + s.rootCycles
  if ph < 96 then s.setSeat { s.seat with phase := ph }
  else (s.setReg Reg.TBL_TIME (s.reg Reg.TBL_TIME + 1)).setSeat { s.seat with phase := ph - 96 }

/-- The trick cycle advances while the deal runs; the trick's last cycle stands until its boundary. -/
def State.passCycle (s : State) : State :=
  let s := s.setSeat { s.seat with cycles := s.seat.cycles + 1 }
  if s.running then
    match s.tricks[s.seat.trick.toNat]? with
    | none => s
    | some e =>
      if s.seat.cycle.toNat + 1 < e.len then
        s.setSeat { s.seat with cycle := s.seat.cycle + 1, rubberCycle := s.seat.rubberCycle + 1 }
      else s
  else s

/-- A tower's droop response runs down, and WIN takes effect 256 cycles after its window began (R348, R354). -/
def State.towerCycle (s : State) (t : Tower) : State :=
  let x := s.towerPower t
  let s := s.setPower t { x with response := x.response.map fun n => n - 1 }
  let k := s.windowRoot / s.rootCycles
  if k = 256 then (s.wr (Reg.PWR_BUBBLE t) 13 8 x.nextWin).applyBubble t else s

/-- A bundle has begun and not all of its instructions have taken effect: its cycle is not over (R71). -/
def State.midBundle (s : State) : Bool := allCores.any fun p => (s.core p).due != []

/-- One cycle of CLK_CORE. While its clocks are stopped (R379), table time alone goes on. A cycle in which a bundle issues ends
when all of the bundle has taken effect (R71). What R6 and R7 protect, they protect for one cycle. -/
def State.tick (s : State) : State :=
  if s.midBundle then s
  else if s.boot.clocks then
    let s := s.each (allCores.filter fun p => s.coreState p == CS_RUNNING && s.clocked p) State.coreCycle
    let s := s.each (allCores.filter fun p => [CS_RUNNING, CS_HELD, CS_FAULTED].contains (s.coreState p) && s.clocked p) State.arrayCycle
    let s := (s.each allCores State.queueCycle).fabCycle
    { (s.passTime.passCycle.each allTowers State.towerCycle).logIrq with guarded := [], added := [] }
  else { s.passTime with guarded := [], added := [] }

end Sys2Proof.Machine
end

