-- ==== Sys2Proof/Machine/Dispatch.lean ====
section
/-! DEFINITION. The command dispatch: one arm per constructor, each a direct call of its meaning. -/

namespace Sys2Proof.Machine

/-- What a command does to everything but the queue. -/
def exec (i : Instr) (s : State) : Host.Outcome State Fault Refusal :=
  match i with
  | .br k pg cond sa target => Sys2Proof.Machine.execBr k pg cond sa target s
  | .jal k pg sd target => Sys2Proof.Machine.execJal k pg sd target s
  | .jr k pg sa => Sys2Proof.Machine.execJr k pg sa s
  | .jalr k pg sd sa => Sys2Proof.Machine.execJalr k pg sd sa s
  | .loop k pg sd target => Sys2Proof.Machine.execLoop k pg sd target s
  | .add k pg sd sa sb => Sys2Proof.Machine.execAdd k pg sd sa sb s
  | .addi k pg sd sa imm => Sys2Proof.Machine.execAddi k pg sd sa imm s
  | .sub k pg sd sa sb => Sys2Proof.Machine.execSub k pg sd sa sb s
  | .mul k pg sd sa sb => Sys2Proof.Machine.execMul k pg sd sa sb s
  | .muli k pg sd sa imm => Sys2Proof.Machine.execMuli k pg sd sa imm s
  | .mulh k pg sd sa sb => Sys2Proof.Machine.execMulh k pg sd sa sb s
  | .mulhu k pg sd sa sb => Sys2Proof.Machine.execMulhu k pg sd sa sb s
  | .div k pg sd sa sb => Sys2Proof.Machine.execDiv k pg sd sa sb s
  | .divu k pg sd sa sb => Sys2Proof.Machine.execDivu k pg sd sa sb s
  | .rem k pg sd sa sb => Sys2Proof.Machine.execRem k pg sd sa sb s
  | .remu k pg sd sa sb => Sys2Proof.Machine.execRemu k pg sd sa sb s
  | .and k pg sd sa sb => Sys2Proof.Machine.execAnd k pg sd sa sb s
  | .andi k pg sd sa imm => Sys2Proof.Machine.execAndi k pg sd sa imm s
  | .or k pg sd sa sb => Sys2Proof.Machine.execOr k pg sd sa sb s
  | .ori k pg sd sa imm => Sys2Proof.Machine.execOri k pg sd sa imm s
  | .xor k pg sd sa sb => Sys2Proof.Machine.execXor k pg sd sa sb s
  | .xori k pg sd sa imm => Sys2Proof.Machine.execXori k pg sd sa imm s
  | .shl k pg sd sa sb => Sys2Proof.Machine.execShl k pg sd sa sb s
  | .shli k pg sd sa imm => Sys2Proof.Machine.execShli k pg sd sa imm s
  | .shr k pg sd sa sb => Sys2Proof.Machine.execShr k pg sd sa sb s
  | .shri k pg sd sa imm => Sys2Proof.Machine.execShri k pg sd sa imm s
  | .sra k pg sd sa sb => Sys2Proof.Machine.execSra k pg sd sa sb s
  | .srai k pg sd sa imm => Sys2Proof.Machine.execSrai k pg sd sa imm s
  | .min k pg sd sa sb => Sys2Proof.Machine.execMin k pg sd sa sb s
  | .max k pg sd sa sb => Sys2Proof.Machine.execMax k pg sd sa sb s
  | .minu k pg sd sa sb => Sys2Proof.Machine.execMinu k pg sd sa sb s
  | .maxu k pg sd sa sb => Sys2Proof.Machine.execMaxu k pg sd sa sb s
  | .sel k pg sd sa sb sc => Sys2Proof.Machine.execSel k pg sd sa sb sc s
  | .li k pg sd imm => Sys2Proof.Machine.execLi k pg sd imm s
  | .lih k pg sd imm => Sys2Proof.Machine.execLih k pg sd imm s
  | .cmpEq k pg sd sa sb => Sys2Proof.Machine.execCmpEq k pg sd sa sb s
  | .cmpNe k pg sd sa sb => Sys2Proof.Machine.execCmpNe k pg sd sa sb s
  | .cmpLt k pg sd sa sb => Sys2Proof.Machine.execCmpLt k pg sd sa sb s
  | .cmpGe k pg sd sa sb => Sys2Proof.Machine.execCmpGe k pg sd sa sb s
  | .cmpLtu k pg sd sa sb => Sys2Proof.Machine.execCmpLtu k pg sd sa sb s
  | .cmpGeu k pg sd sa sb => Sys2Proof.Machine.execCmpGeu k pg sd sa sb s
  | .pset k pg pd sa => Sys2Proof.Machine.execPset k pg pd sa s
  | .pand k pg pd pa pb => Sys2Proof.Machine.execPand k pg pd pa pb s
  | .por k pg pd pa pb => Sys2Proof.Machine.execPor k pg pd pa pb s
  | .pxor k pg pd pa pb => Sys2Proof.Machine.execPxor k pg pd pa pb s
  | .pandn k pg pd pa pb => Sys2Proof.Machine.execPandn k pg pd pa pb s
  | .pnot k pg pd pa => Sys2Proof.Machine.execPnot k pg pd pa s
  | .pfirst k pg pd sa => Sys2Proof.Machine.execPfirst k pg pd sa s
  | .lds k pg sd sa imm => Sys2Proof.Machine.execLds k pg sd sa imm s
  | .sts k pg sd sa imm => Sys2Proof.Machine.execSts k pg sd sa imm s
  | .crd k pg sd imm => Sys2Proof.Machine.execCrd k pg sd imm s
  | .cwr k pg sd imm => Sys2Proof.Machine.execCwr k pg sd imm s
  | .ctr k pg sd imm => Sys2Proof.Machine.execCtr k pg sd imm s
  | .time k ev dv e d => Sys2Proof.Machine.execTime k ev dv e d s
  | .tbar k t => Sys2Proof.Machine.execTbar k t s
  | .rend k => Sys2Proof.Machine.execRend k s
  | .vaddF k f => Sys2Proof.Machine.execVaddF k f s
  | .vsubF k f => Sys2Proof.Machine.execVsubF k f s
  | .vmulF k f => Sys2Proof.Machine.execVmulF k f s
  | .vfmaF k f => Sys2Proof.Machine.execVfmaF k f s
  | .vminF k f => Sys2Proof.Machine.execVminF k f s
  | .vmaxF k f => Sys2Proof.Machine.execVmaxF k f s
  | .vabsF k f => Sys2Proof.Machine.execVabsF k f s
  | .vnegF k f => Sys2Proof.Machine.execVnegF k f s
  | .vaddI k f => Sys2Proof.Machine.execVaddI k f s
  | .vsubI k f => Sys2Proof.Machine.execVsubI k f s
  | .vmulI k f => Sys2Proof.Machine.execVmulI k f s
  | .vminI k f => Sys2Proof.Machine.execVminI k f s
  | .vmaxI k f => Sys2Proof.Machine.execVmaxI k f s
  | .vand k f => Sys2Proof.Machine.execVand k f s
  | .vor k f => Sys2Proof.Machine.execVor k f s
  | .vxor k f => Sys2Proof.Machine.execVxor k f s
  | .vshl k f => Sys2Proof.Machine.execVshl k f s
  | .vshr k f => Sys2Proof.Machine.execVshr k f s
  | .vsra k f => Sys2Proof.Machine.execVsra k f s
  | .vcmpEqF k f => Sys2Proof.Machine.execVcmpEqF k f s
  | .vcmpNeF k f => Sys2Proof.Machine.execVcmpNeF k f s
  | .vcmpLtF k f => Sys2Proof.Machine.execVcmpLtF k f s
  | .vcmpLeF k f => Sys2Proof.Machine.execVcmpLeF k f s
  | .vcmpEqI k f => Sys2Proof.Machine.execVcmpEqI k f s
  | .vcmpNeI k f => Sys2Proof.Machine.execVcmpNeI k f s
  | .vcmpLtI k f => Sys2Proof.Machine.execVcmpLtI k f s
  | .vcmpLeI k f => Sys2Proof.Machine.execVcmpLeI k f s
  | .vsel k f => Sys2Proof.Machine.execVsel k f s
  | .vbcast k f => Sys2Proof.Machine.execVbcast k f s
  | .vperm k f => Sys2Proof.Machine.execVperm k f s
  | .vext k f => Sys2Proof.Machine.execVext k f s
  | .vins k f => Sys2Proof.Machine.execVins k f s
  | .vcvt k f => Sys2Proof.Machine.execVcvt k f s
  | .vq k f => Sys2Proof.Machine.execVq k f s
  | .vdq k f => Sys2Proof.Machine.execVdq k f s
  | .vtpack k f => Sys2Proof.Machine.execVtpack k f s
  | .vtunpk k f => Sys2Proof.Machine.execVtunpk k f s
  | .vact k f => Sys2Proof.Machine.execVact k f s
  | .vredAddF k f => Sys2Proof.Machine.execVredAddF k f s
  | .vredMaxF k f => Sys2Proof.Machine.execVredMaxF k f s
  | .vredMinF k f => Sys2Proof.Machine.execVredMinF k f s
  | .vredAddI k f => Sys2Proof.Machine.execVredAddI k f s
  | .vld k f => Sys2Proof.Machine.execVld k f s
  | .vst k f => Sys2Proof.Machine.execVst k f s
  | .coreIllegal c => Sys2Proof.Machine.execCoreIllegal c s
  | .mcfg k f => Sys2Proof.Machine.execMcfg k f s
  | .mlds k f => Sys2Proof.Machine.execMlds k f s
  | .feed k f => Sys2Proof.Machine.execFeed k f s
  | .mma k f => Sys2Proof.Machine.execMma k f s
  | .mdrn k f => Sys2Proof.Machine.execMdrn k f s
  | .mpre k f => Sys2Proof.Machine.execMpre k f s
  | .mclr k f => Sys2Proof.Machine.execMclr k f s
  | .loadPortRead c a => Sys2Proof.Machine.execLoadPortRead c a s
  | .feedPortRead c a => Sys2Proof.Machine.execFeedPortRead c a s
  | .mmaStep c a q => Sys2Proof.Machine.execMmaStep c a q s
  | .mdrnSnapshot c a q => Sys2Proof.Machine.execMdrnSnapshot c a q s
  | .drainWriteOut c a => Sys2Proof.Machine.execDrainWriteOut c a s
  | .vload k f => Sys2Proof.Machine.execVload k f s
  | .vstore k f => Sys2Proof.Machine.execVstore k f s
  | .lsend k f => Sys2Proof.Machine.execLsend k f s
  | .lrecv k f => Sys2Proof.Machine.execLrecv k f s
  | .cput k f => Sys2Proof.Machine.execCput k f s
  | .cget k f => Sys2Proof.Machine.execCget k f s
  | .ibopCopy k f => Sys2Proof.Machine.execIbopCopy k f s
  | .ibopFill k f => Sys2Proof.Machine.execIbopFill k f s
  | .ibopAdd k f => Sys2Proof.Machine.execIbopAdd k f s
  | .ibopMul k f => Sys2Proof.Machine.execIbopMul k f s
  | .ibopAxpy k f => Sys2Proof.Machine.execIbopAxpy k f s
  | .ibopScal k f => Sys2Proof.Machine.execIbopScal k f s
  | .ibopMax k f => Sys2Proof.Machine.execIbopMax k f s
  | .ibopAct k f => Sys2Proof.Machine.execIbopAct k f s
  | .kvatt k f => Sys2Proof.Machine.execKvatt k f s
  | .xqry k f => Sys2Proof.Machine.execXqry k f s
  | .xchk k f => Sys2Proof.Machine.execXchk k f s
  | .revokeDeadline c => Sys2Proof.Machine.execRevokeDeadline c s
  | .trickBoundary => Sys2Proof.Machine.execTrickBoundary s
  | .rubberBoundary => Sys2Proof.Machine.execRubberBoundary s
  | .eventRecordLeave c => Sys2Proof.Machine.execEventRecordLeave c s
  | .vaultReadBlock c flips => Sys2Proof.Machine.execVaultReadBlock c flips s
  | .returnStatus c status n flips => Sys2Proof.Machine.execReturnStatus c status n flips s
  | .channelResend c flips => Sys2Proof.Machine.execChannelResend c flips s
  | .refreshSlot c => Sys2Proof.Machine.execRefreshSlot c s
  | .scrubSlot c window => Sys2Proof.Machine.execScrubSlot c window s
  | .hostWindow c => Sys2Proof.Machine.execHostWindow c s
  | .rawWrite c enable word => Sys2Proof.Machine.execRawWrite c enable word s
  | .rawRead c enable word => Sys2Proof.Machine.execRawRead c enable word s
  | .seqEntryWrite dir t n v => Sys2Proof.Machine.execSeqEntryWrite dir t n v s
  | .ibrun r => Sys2Proof.Machine.execIbrun r s
  | .ibReport c parityOk => Sys2Proof.Machine.execIbReport c parityOk s
  | .ibReportTimeout c slice => Sys2Proof.Machine.execIbReportTimeout c slice s
  | .ibTabWrite c k w v => Sys2Proof.Machine.execIbTabWrite c k w v s
  | .kvLayoutWrite c tok v => Sys2Proof.Machine.execKvLayoutWrite c tok v s
  | .kvset c => Sys2Proof.Machine.execKvset c s
  | .kvrun r => Sys2Proof.Machine.execKvrun r s
  | .chain r => Sys2Proof.Machine.execChain r s
  | .load gen id image => Sys2Proof.Machine.execLoad gen id image s
  | .start gen id tick => Sys2Proof.Machine.execStart gen id tick s
  | .stop gen id => Sys2Proof.Machine.execStop gen id s
  | .replay gen id tick v => Sys2Proof.Machine.execReplay gen id tick v s
  | .variant gen id rubber v => Sys2Proof.Machine.execVariant gen id rubber v s
  | .stepClock gen id rubber clock resume => Sys2Proof.Machine.execStepClock gen id rubber clock resume s
  | .unload gen id => Sys2Proof.Machine.execUnload gen id s
  | .startTick => Sys2Proof.Machine.execStartTick s
  | .replayTick => Sys2Proof.Machine.execReplayTick s
  | .resumeTick => Sys2Proof.Machine.execResumeTick s
  | .stepDeferral lock => Sys2Proof.Machine.execStepDeferral lock s
  | .noticeOriginate c => Sys2Proof.Machine.execNoticeOriginate c s
  | .noticeReceive l n => Sys2Proof.Machine.execNoticeReceive l n s
  | .linkDetect l => Sys2Proof.Machine.execLinkDetect l s
  | .linkEqualiseDone l => Sys2Proof.Machine.execLinkEqualiseDone l s
  | .linkCheckDone l good => Sys2Proof.Machine.execLinkCheckDone l good s
  | .linkAlign l good widthMax => Sys2Proof.Machine.execLinkAlign l good widthMax s
  | .linkRetryTimer l => Sys2Proof.Machine.execLinkRetryTimer l s
  | .lossOfSignal l => Sys2Proof.Machine.execLossOfSignal l s
  | .frameTime l => Sys2Proof.Machine.execFrameTime l s
  | .frameCrcFail l => Sys2Proof.Machine.execFrameCrcFail l s
  | .idle l h => Sys2Proof.Machine.execIdle l h s
  | .data l h f => Sys2Proof.Machine.execData l h f s
  | .coll l h f => Sys2Proof.Machine.execColl l h f s
  | .disc l h payload => Sys2Proof.Machine.execDisc l h payload s
  | .resendTimeout l => Sys2Proof.Machine.execResendTimeout l s
  | .hello l m => Sys2Proof.Machine.execHello l m s
  | .cert l verifies => Sys2Proof.Machine.execCert l verifies s
  | .challenge l nonce => Sys2Proof.Machine.execChallenge l nonce s
  | .response l verifies => Sys2Proof.Machine.execResponse l verifies s
  | .confirm l result rubber => Sys2Proof.Machine.execConfirm l result rubber s
  | .helloPeriod => Sys2Proof.Machine.execHelloPeriod s
  | .timePeriod => Sys2Proof.Machine.execTimePeriod s
  | .retrain l => Sys2Proof.Machine.execRetrain l s
  | .linkDisable l => Sys2Proof.Machine.execLinkDisable l s
  | .tblFormWrite v => Sys2Proof.Machine.execTblFormWrite v s
  | .timeFrame l f phase rtt => Sys2Proof.Machine.execTimeFrame l f phase rtt s
  | .trainingStageTimeout l => Sys2Proof.Machine.execTrainingStageTimeout l s
  | .registerWrite a size v => Sys2Proof.Machine.execRegisterWrite a size v s
  | .vaultWindowRead off len => Sys2Proof.Machine.execVaultWindowRead off len s
  | .vaultWindowWrite off bytes poison => Sys2Proof.Machine.execVaultWindowWrite off bytes poison s
  | .subqWake prod items => Sys2Proof.Machine.execSubqWake prod items s
  | .hstCplqFull => Sys2Proof.Machine.execHstCplqFull s
  | .stage gen id lcore addr word => Sys2Proof.Machine.execStage gen id lcore addr word s
  | .mgmt gen id reply request load => Sys2Proof.Machine.execMgmt gen id reply request load s
  | .nop gen id => Sys2Proof.Machine.execNop gen id s
  | .tlLink good => Sys2Proof.Machine.execTlLink good s
  | .init b0 b1 => Sys2Proof.Machine.execInit b0 b1 s
  | .crixDataFrame h ch sor seq payload => Sys2Proof.Machine.execCrixDataFrame h ch sor seq payload s
  | .crixResendTimeout => Sys2Proof.Machine.execCrixResendTimeout s
  | .write => Sys2Proof.Machine.execWrite s
  | .read => Sys2Proof.Machine.execRead s
  | .cxLink up cxclk => Sys2Proof.Machine.execCxLink up cxclk s
  | .egress => Sys2Proof.Machine.execEgress s
  | .crixIdleFrame h => Sys2Proof.Machine.execCrixIdleFrame h s
  | .pwrRailFault lost => Sys2Proof.Machine.execPwrRailFault lost s
  | .pwrPhaseFail t k => Sys2Proof.Machine.execPwrPhaseFail t k s
  | .phaseFailClear t mask => Sys2Proof.Machine.execPhaseFailClear t mask s
  | .governorWindow => Sys2Proof.Machine.execGovernorWindow s
  | .pwrDroop d => Sys2Proof.Machine.execPwrDroop d s
  | .pwrUndervolt d det => Sys2Proof.Machine.execPwrUndervolt d det s
  | .anteWrite t v => Sys2Proof.Machine.execAnteWrite t v s
  | .corePwrOn c => Sys2Proof.Machine.execCorePwrOn c s
  | .corePwrRet c => Sys2Proof.Machine.execCorePwrRet c s
  | .corePwrOff c => Sys2Proof.Machine.execCorePwrOff c s
  | .powerTransitionDone c => Sys2Proof.Machine.execPowerTransitionDone c s
  | .droopMonitorQuiet t => Sys2Proof.Machine.execDroopMonitorQuiet t s
  | .sensorSample samples => Sys2Proof.Machine.execSensorSample samples s
  | .shadowEstimate => Sys2Proof.Machine.execShadowEstimate s
  | .forecastRun fs => Sys2Proof.Machine.execForecastRun fs s
  | .thmForecast t => Sys2Proof.Machine.execThmForecast t s
  | .coolantWrite inlet outlet flow => Sys2Proof.Machine.execCoolantWrite inlet outlet flow s
  | .coolantStale => Sys2Proof.Machine.execCoolantStale s
  | .coolantSecond => Sys2Proof.Machine.execCoolantSecond s
  | .thmStopClear t => Sys2Proof.Machine.execThmStopClear t s
  | .keepWarmShort t => Sys2Proof.Machine.execKeepWarmShort t s
  | .thermalTrip t analog die temp => Sys2Proof.Machine.execThermalTrip t analog die temp s
  | .powerOnReset vaux puf => Sys2Proof.Machine.execPowerOnReset vaux puf s
  | .railGoodAsserted rails phases => Sys2Proof.Machine.execRailGoodAsserted rails phases s
  | .stageOneTimeout => Sys2Proof.Machine.execStageOneTimeout s
  | .firmwareVerify a b => Sys2Proof.Machine.execFirmwareVerify a b s
  | .ledgerApply factoryOk batchesOk => Sys2Proof.Machine.execLedgerApply factoryOk batchesOk s
  | .connectionTest lines spares strobes => Sys2Proof.Machine.execConnectionTest lines spares strobes s
  | .trimStage codes held => Sys2Proof.Machine.execTrimStage codes held s
  | .selfTestWave w failed => Sys2Proof.Machine.execSelfTestWave w failed s
  | .memoryTest found dead => Sys2Proof.Machine.execMemoryTest found dead s
  | .bringupReady => Sys2Proof.Machine.execBringupReady s
  | .trimMeasure t m => Sys2Proof.Machine.execTrimMeasure t m s
  | .moduleComputeReset => Sys2Proof.Machine.execModuleComputeReset s
  | .towerComputeReset t => Sys2Proof.Machine.execTowerComputeReset t s
  | .computeResetDone => Sys2Proof.Machine.execComputeResetDone s
  | .spareGo p reason copy => Sys2Proof.Machine.execSpareGo p reason copy s
  | .coreRetired readable => Sys2Proof.Machine.execCoreRetired readable s
  | .powerDown => Sys2Proof.Machine.execPowerDown s
  | .resetNLow => Sys2Proof.Machine.execResetNLow s
  | .refclkLoss => Sys2Proof.Machine.execRefclkLoss s
  | .towerClockLock t => Sys2Proof.Machine.execTowerClockLock t s
  | .ledgerBatchWrite ok => Sys2Proof.Machine.execLedgerBatchWrite ok s
  | .recoveryGo image => Sys2Proof.Machine.execRecoveryGo image s
  | .fwStage image => Sys2Proof.Machine.execFwStage image s
  | .fwActivate => Sys2Proof.Machine.execFwActivate s
  | .fwCommit => Sys2Proof.Machine.execFwCommit s
  | .telemetrySnapshot => Sys2Proof.Machine.execTelemetrySnapshot s
  | .mgtRestart => Sys2Proof.Machine.execMgtRestart s
  | .getVersion smbus busy => Sys2Proof.Machine.execGetVersion smbus busy s
  | .getCapabilities smbus busy => Sys2Proof.Machine.execGetCapabilities smbus busy s
  | .negotiateAlgorithms smbus busy offered => Sys2Proof.Machine.execNegotiateAlgorithms smbus busy offered s
  | .getDigests smbus busy => Sys2Proof.Machine.execGetDigests smbus busy s
  | .getCertificate smbus busy slot => Sys2Proof.Machine.execGetCertificate smbus busy slot s
  | .spdmChallenge smbus busy slot summary context => Sys2Proof.Machine.execSpdmChallenge smbus busy slot summary context s
  | .getMeasurements smbus busy index sign => Sys2Proof.Machine.execGetMeasurements smbus busy index sign s
  | .pldmSample done => Sys2Proof.Machine.execPldmSample done s
  | .tapInstruction op => Sys2Proof.Machine.execTapInstruction op s
  | .debugWrite halt a size v => Sys2Proof.Machine.execDebugWrite halt a size v s
  | .eventLogRecord => Sys2Proof.Machine.execEventLogRecord s
  | .eventLogConsWrite v => Sys2Proof.Machine.execEventLogConsWrite v s
  | .fwCommittable => Sys2Proof.Machine.execFwCommittable s
  | .pmuArm action => Sys2Proof.Machine.execPmuArm action s
  | .pmuFreeze => Sys2Proof.Machine.execPmuFreeze s
  | .pmuSnapshot => Sys2Proof.Machine.execPmuSnapshot s
  | .pmuUnfreeze => Sys2Proof.Machine.execPmuUnfreeze s
  | .sampleComplete c latency flags => Sys2Proof.Machine.execSampleComplete c latency flags s
  | .sampleConsWrite c v => Sys2Proof.Machine.execSampleConsWrite c v s

end Sys2Proof.Machine
end

