-- ==== Sys2Proof/WellFormed.lean ====
section
/-! DEFINITION. When a command's operands have the shape that its rule gives them. The types of Syntax.lean already bound
every field; what remains are lists of a fixed length, percentages and sizes. An operation code, format or immediate that
a core must reject is a legal operand here: rejecting it is the command's effect (R72, R101, R126). -/

namespace Sys2Proof

/-- A list has one entry for each of n places. -/
def hasLen {α : Type} (n : Nat) (xs : List α) : Bool := xs.length == n

/-- The operands of a command are well formed. -/
def Instr.wellFormed (i : Instr) : Bool :=
  match i with
  -- every sensor of the four towers: 692 each (16 R362, R363)
  | .sensorSample samples => hasLen 4 samples && samples.all (hasLen 692)
  -- one forecast for each tower (R371)
  | .forecastRun fs => hasLen 4 fs
  -- the phases of each tower (R344)
  | .railGoodAsserted _ phases => hasLen 4 phases
  -- a code for each of the ten trimmed points of each tower (R30)
  | .trimStage codes _ => hasLen 4 codes && codes.all (hasLen 10)
  | .powerOnReset _ puf => hasLen 32 puf.flips
  | .trimMeasure _ m => hasLen 10 m.want
  -- a busy fraction is a percentage (18 SEC_MGT_STAT)
  | .mgmt _ _ _ _ percent => decide (percent.toNat ≤ 100)
  | .subqWake _ items => items.all fun (x : Machine.Fetched) => decide (x.load.toNat ≤ 100)
  -- a control access moves at most eight bytes (R4)
  | .registerWrite _ size _ => decide (0 < size) && decide (size ≤ 8)
  | .debugWrite _ _ size _ => decide (0 < size) && decide (size ≤ 8)
  -- a rail fault names a rail (R342)
  | .pwrRailFault lost => lost != 0
  | .br .. | .jal .. | .jr .. | .jalr .. | .loop .. | .add .. | .addi .. | .sub .. | .mul .. | .muli .. | .mulh .. |
    .mulhu .. | .div .. | .divu .. | .rem .. | .remu .. | .and .. | .andi .. | .or .. | .ori .. | .xor .. | .xori .. |
    .shl .. | .shli .. | .shr .. | .shri .. | .sra .. | .srai .. | .min .. | .max .. | .minu .. | .maxu .. | .sel .. |
    .li .. | .lih .. | .cmpEq .. | .cmpNe .. | .cmpLt .. | .cmpGe .. | .cmpLtu .. | .cmpGeu .. | .pset .. | .pand .. |
    .por .. | .pxor .. | .pandn .. | .pnot .. | .pfirst .. | .lds .. | .sts .. | .crd .. | .cwr .. | .ctr .. | .time
    .. | .tbar .. | .rend .. | .vaddF .. | .vsubF .. | .vmulF .. | .vfmaF .. | .vminF .. | .vmaxF .. | .vabsF .. |
    .vnegF .. | .vaddI .. | .vsubI .. | .vmulI .. | .vminI .. | .vmaxI .. | .vand .. | .vor .. | .vxor .. | .vshl .. |
    .vshr .. | .vsra .. | .vcmpEqF .. | .vcmpNeF .. | .vcmpLtF .. | .vcmpLeF .. | .vcmpEqI .. | .vcmpNeI .. | .vcmpLtI
    .. | .vcmpLeI .. | .vsel .. | .vbcast .. | .vperm .. | .vext .. | .vins .. | .vcvt .. | .vq .. | .vdq .. | .vtpack
    .. | .vtunpk .. | .vact .. | .vredAddF .. | .vredMaxF .. | .vredMinF .. | .vredAddI .. | .vld .. | .vst .. |
    .coreIllegal .. | .mcfg .. | .mlds .. | .feed .. | .mma .. | .mdrn .. | .mpre .. | .mclr .. | .loadPortRead .. |
    .feedPortRead .. | .mmaStep .. | .mdrnSnapshot .. | .drainWriteOut .. | .vload .. | .vstore .. | .lsend .. |
    .lrecv .. | .cput .. | .cget .. | .ibopCopy .. | .ibopFill .. | .ibopAdd .. | .ibopMul .. | .ibopAxpy .. |
    .ibopScal .. | .ibopMax .. | .ibopAct .. | .kvatt .. | .xqry .. | .xchk .. | .revokeDeadline .. | .trickBoundary
    .. | .rubberBoundary .. | .eventRecordLeave .. | .vaultReadBlock .. | .returnStatus .. | .channelResend .. |
    .refreshSlot .. | .scrubSlot .. | .hostWindow .. | .rawWrite .. | .rawRead .. | .seqEntryWrite .. | .ibrun .. |
    .ibReport .. | .ibReportTimeout .. | .ibTabWrite .. | .kvLayoutWrite .. | .kvset .. | .kvrun .. | .chain .. |
    .load .. | .start .. | .stop .. | .replay .. | .variant .. | .stepClock .. | .unload .. | .startTick .. |
    .replayTick .. | .resumeTick .. | .stepDeferral .. | .noticeOriginate .. | .noticeReceive .. | .linkDetect .. |
    .linkEqualiseDone .. | .linkCheckDone .. | .linkAlign .. | .linkRetryTimer .. | .lossOfSignal .. | .frameTime .. |
    .frameCrcFail .. | .idle .. | .data .. | .coll .. | .disc .. | .resendTimeout .. | .hello .. | .cert .. |
    .challenge .. | .response .. | .confirm .. | .helloPeriod .. | .timePeriod .. | .retrain .. | .linkDisable .. |
    .tblFormWrite .. | .timeFrame .. | .trainingStageTimeout .. | .vaultWindowRead .. | .vaultWindowWrite .. |
    .hstCplqFull .. | .tlLink .. | .stage .. | .nop .. | .init .. | .crixDataFrame .. | .crixResendTimeout .. | .write .. | .read
    .. | .cxLink .. | .egress .. | .crixIdleFrame .. | .pwrPhaseFail .. | .phaseFailClear .. | .governorWindow .. |
    .pwrDroop .. | .pwrUndervolt .. | .anteWrite .. | .corePwrOn .. | .corePwrRet .. | .corePwrOff .. |
    .powerTransitionDone .. | .droopMonitorQuiet .. | .shadowEstimate .. | .thmForecast .. | .coolantWrite .. |
    .coolantStale .. | .coolantSecond .. | .thmStopClear .. | .keepWarmShort .. | .thermalTrip .. |
    .stageOneTimeout .. | .firmwareVerify .. | .ledgerApply .. | .connectionTest .. | .selfTestWave .. | .memoryTest
    .. | .bringupReady .. | .moduleComputeReset .. | .towerComputeReset .. | .computeResetDone .. | .spareGo .. |
    .coreRetired .. | .powerDown .. | .resetNLow .. | .refclkLoss .. | .towerClockLock .. | .ledgerBatchWrite .. |
    .recoveryGo .. | .fwStage .. | .fwActivate .. | .fwCommit .. | .telemetrySnapshot .. | .mgtRestart .. |
    .getVersion .. | .getCapabilities .. | .negotiateAlgorithms .. | .getDigests .. | .getCertificate .. |
    .spdmChallenge .. | .getMeasurements .. | .pldmSample .. | .tapInstruction .. | .eventLogRecord .. |
    .eventLogConsWrite .. | .fwCommittable .. | .pmuArm .. | .pmuFreeze .. | .pmuSnapshot .. | .pmuUnfreeze .. |
    .sampleComplete .. | .sampleConsWrite .. => true

end Sys2Proof
end

