-- ==== Sys2Proof/Safety.lean ====
section
/-! DEFINITION. What claims are stated in terms of: the stores in canonical form, the queue well formed, a command that
completes, and what a command leaves as it was. -/

namespace Sys2Proof.Machine

/-! ### Well-formed states -/

/-- The byte memories and the tag table of a core are in canonical form: scratch and its tags, the hand store, the vault
with its spare rows. -/
def Core.wf (c : Core) : Bool :=
  c.scratch.wf && Tab.wf false c.scratchPoison && c.hand.wf && c.vault.mem.wf && c.vault.spare.wf

/-- Every store of the module is in canonical form, the control registers with their reset values as what an unlisted one
reads. -/
def State.wf (s : State) : Prop := Tab.wfBy resetOf s.regs = true ∧ ∀ p : PCore, (s.core p).wf = true

/-- Every waiting command has operands of the shape its rule gives them. -/
def State.queueWf (s : State) : Prop := ∀ c ∈ s.pending, c.wellFormed = true

/-- A command completes: the machine neither faults nor refuses. -/
def Completes (o : Host.Outcome State Fault Refusal) : Prop := ∃ t, o = .next t

/-! ### What a command leaves as it was -/

/-- The parts of the state beside the control registers and the cores; `notes` are what the present cycle has set and counted
(R6, R7, R199). -/
inductive Piece where
  | pending | seat | engines | links | host | crix | power | heat | boot | sec | hubQueue | sent | notes
  deriving DecidableEq, Repr

/-- A part is the same in two states. -/
def Piece.same (x : Piece) (s t : State) : Prop :=
  match x with
  | .pending => t.pending = s.pending
  | .seat => t.seat = s.seat
  | .engines => t.engines = s.engines
  | .links => t.links = s.links
  | .host => t.host = s.host
  | .crix => t.crix = s.crix
  | .power => t.power = s.power
  | .heat => t.heat = s.heat
  | .boot => t.boot = s.boot
  | .sec => t.sec = s.sec
  | .hubQueue => t.hubQueue = s.hubQueue
  | .sent => t.sent = s.sent
  | .notes => t.guarded = s.guarded ∧ t.added = s.added

/-- Every part outside a list is the same. -/
def PiecesBut (l : List Piece) (s t : State) : Prop := ∀ x, x ∉ l → x.same s t

/-- Every control register outside a list of addresses is the same. -/
def RegsBut (l : List Nat) (s t : State) : Prop := ∀ a, a ∉ l → t.reg a = s.reg a

/-- Every physical core outside a list is the same. -/
def CoresBut (l : List PCore) (s t : State) : Prop := ∀ p, p ∉ l → t.core p = s.core p

/-- The registers in which the issue of an instruction is counted or sampled (R421, R423, R428). -/
def coreCounters (p : PCore) : List Nat :=
  (List.range 16).map (Reg.PMU_FIXED p) ++ ((List.range 8).map (Reg.PMU_PROG p)
    ++ [Reg.PMU_OVF p, Reg.PMU_SAMPLE_STAT p])

/-- The supervisors of the towers are the same but for the activity they have counted in the present governor window
(R350). -/
def SamePower (s t : State) : Prop :=
  ∀ w, { t.towerPower w with counts := (s.towerPower w).counts } = s.towerPower w

/-- A core without the bookkeeping of fetch, issue and sampling, and without the memories that are read by the byte. -/
def Core.kept (c : Core) : Core :=
  { c with src := RegFile.zero, bundle := 0, due := [], next := 0, waiting := none, readySince := none, owed := 0,
           slotMask := none, countdown := 0, sample := none, scratch := [], scratchPoison := [], hand := [],
           vault := { c.vault with mem := [] } }

/-- Two cores hold the same registers, tags, queues, events and arrays, and the same byte at every address of scratch,
hand store and vault. -/
structure Core.Like (c d : Core) : Prop where
  kept : c.kept = d.kept
  scratch : ∀ a, c.scratch.byte a = d.scratch.byte a
  tags : ∀ a, c.scratchTag a = d.scratchTag a
  hand : ∀ a, c.hand.byte a = d.hand.byte a
  vault : ∀ a, c.vault.mem.byte a = d.vault.mem.byte a

/-- An instruction of core p has turned it into `d`, and has changed nothing else of the module but control registers in
the list `w`, the core's counters, the activity counts and the notes of the cycle. -/
structure CoreStep (s t : State) (p : PCore) (w : List Nat) (d : Core) : Prop where
  core : (t.core p).Like d
  others : CoresBut [p] s t
  regs : ∀ a, a ∉ w → a ∉ coreCounters p → t.reg a = s.reg a
  pieces : PiecesBut [.power, .notes] s t
  power : SamePower s t

/-! ### When an instruction issues -/

/-- An instruction issues, but for what keeps it waiting itself (R71, R72, R83, R84): it begins a bundle of a core that runs,
owes no cycle, is not held by a bubble and has not ended its rubber, the bundle is legal and no other slot of it waits; or it
is the instruction that the bundle issued last has due. -/
def Issues (s : State) (i : Instr) : Prop :=
  match slotWord i with
  | some x => s.fits x.1 x.2.1 x.2.2 = true
  | none => False

/-- A scalar register file after a scalar result: written where the guard permits, kept where it forbids, kept and
poisoned where the guard is poisoned (R103). -/
def Guard.scalar (g : Guard) (r : RegFile) (sd : SReg) (v : W64) (tag : Bool) : RegFile :=
  match g with
  | .on => r.sPut sd v tag
  | .off => r
  | .poisoned => r.sTaint sd

/-- The same for a predicate result. -/
def Guard.pred (g : Guard) (r : RegFile) (pd : PReg) (v : PredBits) (tag : Bool) : RegFile :=
  match g with
  | .on => r.pPut pd v tag
  | .off => r
  | .poisoned => r.pTaint pd

/-- The core of an instruction after a result in scalar register sd under its guard. -/
def scalarCore (s : State) (k : At) (pg : PReg) (sd : SReg) (v : W64) (tag : Bool) : Core :=
  { s.core k.core with regs := ((s.view k).guard pg).scalar (s.core k.core).regs sd v tag }

/-- The core of an instruction after a result in predicate register pd under its guard. -/
def predCore (s : State) (k : At) (pg pd : PReg) (v : PredBits) (tag : Bool) : Core :=
  { s.core k.core with regs := ((s.view k).guard pg).pred (s.core k.core).regs pd v tag }

end Sys2Proof.Machine
end

