-- ==== Sys2Proof/Certificates/Slice0/Obligations.lean ====
section
/-! DEFINITION. The statements for the provers, from the numbered rules of the spec. The tables before a statement pair
each command with the value its rule gives it, written from the rule and not from the model's meaning of it. -/

namespace Sys2Proof.Claims

open Sys2Proof.Machine

/-! ### Scalars -/

/-- The two-source scalar instructions and their results (R104, R106). -/
def scalarTable (k : At) (pg : PReg) (sd sa sb : SReg) : List (Instr × (W64 → W64 → W64)) :=
  [(.add k pg sd sa sb, fun a b => BitVec.ofNat 64 (a.toNat + b.toNat)),
   (.sub k pg sd sa sb, fun a b => BitVec.ofInt 64 (a.toInt - b.toInt)),
   (.mul k pg sd sa sb, fun a b => BitVec.ofNat 64 (a.toNat * b.toNat)),
   (.mulh k pg sd sa sb, fun a b => (a.signExtend 128 * b.signExtend 128).extractLsb' 64 64),
   (.mulhu k pg sd sa sb, fun a b => (a.setWidth 128 * b.setWidth 128).extractLsb' 64 64),
   (.div k pg sd sa sb, fun a b => if b = 0 then BitVec.allOnes 64 else BitVec.ofInt 64 (a.toInt.tdiv b.toInt)),
   (.divu k pg sd sa sb, fun a b => if b = 0 then BitVec.allOnes 64 else BitVec.ofNat 64 (a.toNat / b.toNat)),
   (.rem k pg sd sa sb, fun a b => if b = 0 then a else BitVec.ofInt 64 (a.toInt.tmod b.toInt)),
   (.remu k pg sd sa sb, fun a b => if b = 0 then a else BitVec.ofNat 64 (a.toNat % b.toNat)),
   (.and k pg sd sa sb, fun a b => a &&& b),
   (.or k pg sd sa sb, fun a b => a ||| b),
   (.xor k pg sd sa sb, fun a b => a ^^^ b)] ++
  [(.shl k pg sd sa sb, fun a b => BitVec.ofNat 64 (a.toNat * 2 ^ (b.toNat % 64))),
   (.shr k pg sd sa sb, fun a b => BitVec.ofNat 64 (a.toNat / 2 ^ (b.toNat % 64))),
   (.sra k pg sd sa sb, fun a b => BitVec.ofInt 64 (a.toInt / 2 ^ (b.toNat % 64))),
   (.min k pg sd sa sb, fun a b => if a.toInt ≤ b.toInt then a else b),
   (.max k pg sd sa sb, fun a b => if a.toInt ≤ b.toInt then b else a),
   (.minu k pg sd sa sb, fun a b => if a.toNat ≤ b.toNat then a else b),
   (.maxu k pg sd sa sb, fun a b => if a.toNat ≤ b.toNat then b else a),
   (.cmpEq k pg sd sa sb, fun a b => if a = b then 1 else 0),
   (.cmpNe k pg sd sa sb, fun a b => if a = b then 0 else 1),
   (.cmpLt k pg sd sa sb, fun a b => if a.toInt < b.toInt then 1 else 0),
   (.cmpGe k pg sd sa sb, fun a b => if a.toInt < b.toInt then 0 else 1),
   (.cmpLtu k pg sd sa sb, fun a b => if a.toNat < b.toNat then 1 else 0),
   (.cmpGeu k pg sd sa sb, fun a b => if a.toNat < b.toNat then 0 else 1)]

/-- The scalar instructions with an immediate and their results (R106). -/
def scalarImmTable (k : At) (pg : PReg) (sd sa : SReg) (imm : BitVec 40) : List (Instr × (W64 → W64)) :=
  [(.addi k pg sd sa imm, fun a => BitVec.ofInt 64 (a.toInt + imm.toInt)),
   (.muli k pg sd sa imm, fun a => BitVec.ofInt 64 (a.toInt * imm.toInt)),
   (.andi k pg sd sa imm, fun a => a &&& imm.signExtend 64),
   (.ori k pg sd sa imm, fun a => a ||| imm.signExtend 64),
   (.xori k pg sd sa imm, fun a => a ^^^ imm.signExtend 64),
   (.shli k pg sd sa imm, fun a => BitVec.ofNat 64 (a.toNat * 2 ^ (imm.toNat % 64))),
   (.shri k pg sd sa imm, fun a => BitVec.ofNat 64 (a.toNat / 2 ^ (imm.toNat % 64))),
   (.srai k pg sd sa imm, fun a => BitVec.ofInt 64 (a.toInt / 2 ^ (imm.toNat % 64)))]

end Sys2Proof.Claims

open Sys2Proof Sys2Proof.Machine Sys2Proof.Claims

/-- R104, R106, R71, R87, R103: an instruction of two scalar sources that issues writes its result, computed from the
registers its bundle began with, into sd, poisoned if a source is, as its guard permits; nothing else changes. -/
def Sys2Proof.Claims.ScalarTwoSourceResult : Prop :=
  ∀ (k : At) (pg : PReg) (sd sa sb : SReg) (s : State),
    ∀ row ∈ scalarTable k pg sd sa sb, Issues s row.1 → ∃ t, exec row.1 s = .next t ∧
      CoreStep s t k.core []
        (scalarCore s k pg sd (row.2 ((s.view k).sGet sa) ((s.view k).sGet sb))
          ((s.view k).sTag sa || (s.view k).sTag sb))

/-- R106: the same with a sign-extended immediate; shifts take its low six bits. -/
def Sys2Proof.Claims.ScalarImmediateResult : Prop :=
  ∀ (k : At) (pg : PReg) (sd sa : SReg) (imm : BitVec 40) (s : State),
    ∀ row ∈ scalarImmTable k pg sd sa imm, Issues s row.1 → ∃ t, exec row.1 s = .next t ∧
      CoreStep s t k.core [] (scalarCore s k pg sd (row.2 ((s.view k).sGet sa)) ((s.view k).sTag sa))

/-! ### Predicates, selects, immediates -/

namespace Sys2Proof.Claims

open Sys2Proof.Machine

/-- The predicate instructions with bit i of their result and its tag (R107). -/
def predTable (k : At) (pg pd pa pb : PReg) (sa : SReg) (r : RegFile) : List (Instr × (Nat → Bool) × Bool) :=
  [(.pset k pg pd sa, fun _ => r.sGet sa != 0, r.sTag sa),
   (.pand k pg pd pa pb, fun i => (r.pGet pa).getLsbD i && (r.pGet pb).getLsbD i, r.pTag pa || r.pTag pb),
   (.por k pg pd pa pb, fun i => (r.pGet pa).getLsbD i || (r.pGet pb).getLsbD i, r.pTag pa || r.pTag pb),
   (.pxor k pg pd pa pb, fun i => (r.pGet pa).getLsbD i != (r.pGet pb).getLsbD i, r.pTag pa || r.pTag pb),
   (.pandn k pg pd pa pb, fun i => (r.pGet pa).getLsbD i && !(r.pGet pb).getLsbD i, r.pTag pa || r.pTag pb),
   (.pnot k pg pd pa, fun i => !(r.pGet pa).getLsbD i, r.pTag pa),
   (.pfirst k pg pd sa, fun i => decide (i < (r.sGet sa).toNat), r.sTag sa)]

/-- SEL, LI and LIH with their result and its tag (R104, R87; 05 "Scalar arithmetic"). -/
def selectTable (k : At) (pg : PReg) (sd sa sb sc : SReg) (imm : BitVec 46) (r : RegFile) : List (Instr × W64 × Bool) :=
  [(.sel k pg sd sa sb sc, if r.sGet sc = 0 then r.sGet sb else r.sGet sa,
     r.sTag sc || (if r.sGet sc = 0 then r.sTag sb else r.sTag sa)),
   (.li k pg sd imm, BitVec.ofInt 64 imm.toInt, false),
   (.lih k pg sd (imm &&& 0x3FFFF), imm.setWidth 18 ++ (r.sGet sd).setWidth 46, r.sTag sd)]

/-- The index of the bundle of an instruction: the one it begins, else the one being issued. -/
def bundleIx (s : State) (k : At) : Nat := if k.lead then (s.core k.core).next else (s.core k.core).bundle.toNat

/-- The index of the bundle after it in sequence. -/
def followIx (s : State) (k : At) : Nat := if k.lead then (s.core k.core).next + 1 else (s.core k.core).next

/-- A control transfer: the command, the register whose poison makes its condition poisoned, whether the condition
holds, the target, and the link or counter it writes (05 "Control flow"; R105). -/
structure Jump where
  cmd : Instr
  watch : SReg
  taken : Prop
  target : Nat
  writes : Option (SReg × W64 × Bool)

/-- The condition that COND selects. -/
def CondHolds (c : Fin 8) (a : W64) : Prop :=
  (c = 0) ∨ (c = 1 ∧ a = 0) ∨ (c = 2 ∧ a ≠ 0) ∨ (c = 3 ∧ a.toInt < 0) ∨ (c = 4 ∧ 0 ≤ a.toInt) ∨ (c = 5 ∧ a.toInt ≤ 0)
    ∨ (c = 6 ∧ 0 < a.toInt)

/-- The control transfers. -/
def jumpTable (s : State) (k : At) (pg : PReg) (c : Fin 8) (sa sd : SReg) (target : BitVec 13) : List Jump :=
  let r := s.view k
  let link : W64 := BitVec.ofNat 64 (bundleIx s k + 1)
  [{ cmd := .br k pg c sa target, watch := sa, taken := CondHolds c (r.sGet sa), target := target.toNat, writes := none },
   { cmd := .jal k pg sd target, watch := 0, taken := True, target := target.toNat, writes := some (sd, link, false) },
   { cmd := .jr k pg sa, watch := sa, taken := True, target := (r.sGet sa).toNat % 2 ^ 13, writes := none },
   { cmd := .jalr k pg sd sa, watch := sa, taken := True, target := (r.sGet sa).toNat % 2 ^ 13,
     writes := some (sd, link, false) },
   { cmd := .loop k pg sd target, watch := sd, taken := r.sGet sd ≠ 1, target := target.toNat,
     writes := some (sd, BitVec.ofInt 64 ((r.sGet sd).toInt - 1), false) }]

/-- The core of an instruction after what a control transfer writes. -/
def jumpCore (s : State) (k : At) (pg : PReg) (x : Option (SReg × W64 × Bool)) : Core :=
  match x with
  | some y => scalarCore s k pg y.1 y.2.1 y.2.2
  | none => s.core k.core

/-- The scratch address of a scalar access. -/
def scalarAddr (r : RegFile) (sa : SReg) (imm : BitVec 40) : Nat :=
  (BitVec.ofInt 64 ((r.sGet sa).toInt + imm.toInt)).toNat

/-- n bytes at an address lie in scratch, naturally aligned (R79). -/
def InScratch (a n : Nat) : Prop := a % n = 0 ∧ a + n ≤ 0x300000

/-- The control address of a hand-visible register, by its offset in the local control space (R81). -/
def handVisible (p : PCore) : List (BitVec 40 × Nat) :=
  [(0, Reg.CORE_ID p), (0x200, Reg.CORE_NUM_FLAGS p), (0x208, Reg.CORE_NUM_EVENT_EN p), (0x210, Reg.CORE_SR_SEED0 p),
   (0x218, Reg.CORE_SR_SEED1 p)]

/-- The schedule counters by IMM[1:0] (R110). -/
def counterTable (s : State) : List (BitVec 40 × W64) :=
  [(0, BitVec.ofNat 64 s.rubber), (1, BitVec.ofNat 64 s.seat.trick.toNat), (2, BitVec.ofNat 64 s.seat.cycle.toNat),
   (3, BitVec.ofNat 64 (s.rubber * 2 ^ 24 + s.seat.trick.toNat))]

end Sys2Proof.Claims

/-- R107: a predicate instruction that issues writes its result into pd, bit for bit, poisoned if a source is, as its
guard permits; nothing else changes. -/
def Obligations.PredicateResult : Prop :=
  ∀ (k : At) (pg pd pa pb : PReg) (sa : SReg) (s : State),
    ∀ row ∈ predTable k pg pd pa pb sa (s.view k), Issues s row.1 → ∃ t v, exec row.1 s = .next t ∧
      (∀ i < 128, v.getLsbD i = row.2.1 i) ∧ CoreStep s t k.core [] (predCore s k pg pd v row.2.2)

/-- R104, R87: SEL, LI and LIH. -/
def Sys2Proof.Claims.SelectAndImmediateResult : Prop :=
  ∀ (k : At) (pg : PReg) (sd sa sb sc : SReg) (imm : BitVec 46) (s : State),
    ∀ row ∈ selectTable k pg sd sa sb sc imm (s.view k), Issues s row.1 → ∃ t, exec row.1 s = .next t ∧
      CoreStep s t k.core [] (scalarCore s k pg sd row.2.1 row.2.2)

/-- R67: what a write of a register leaves to be read: s0 reads zero and p0 all ones whatever is written, neither is
ever poisoned, and every other register reads what was written last with its tag. -/
def Obligations.RegisterWriteThenRead : Prop :=
  (∀ (r : RegFile) (i j : SReg) (v : W64) (x : Bool),
    ((r.sPut i v x).sGet j = if j = 0 then 0 else if j = i then v else r.sGet j) ∧
    ((r.sPut i v x).sTag j = if j = 0 then false else if j = i then x else r.sTag j) ∧
    ((r.sTaint i).sGet j = r.sGet j) ∧ ((r.sTaint i).sTag j = if j = 0 then false else if j = i then true else r.sTag j)) ∧
  (∀ (r : RegFile) (i j : PReg) (v : PredBits) (x : Bool),
    ((r.pPut i v x).pGet j = if j = 0 then BitVec.allOnes 128 else if j = i then v else r.pGet j) ∧
    ((r.pPut i v x).pTag j = if j = 0 then false else if j = i then x else r.pTag j) ∧
    ((r.pTaint i).pGet j = r.pGet j) ∧ ((r.pTaint i).pTag j = if j = 0 then false else if j = i then true else r.pTag j)) ∧
  (∀ (r : RegFile) (i j : VReg) (v : Vec) (x : BitVec 32),
    ((r.vPut i v x).vGet j = if j = i then v else r.vGet j) ∧ ((r.vPut i v x).vTag j = if j = i then x else r.vTag j))

/-- R71, R75, R105: a control transfer whose guard is clean issues; taken, issue goes on at its target after two cycles
without a bundle, else at the next bundle in sequence; it writes its link or its counter and nothing else. -/
def Obligations.ControlTransfer : Prop :=
  ∀ (k : At) (pg : PReg) (c : Fin 8) (sa sd : SReg) (target : BitVec 13) (s : State),
    c ≠ 7 → (c = 0 → sa = 0) → (s.view k).pTag pg = false →
    ∀ j ∈ jumpTable s k pg c sa sd target, Issues s j.cmd → (((s.view k).pGet pg).getLsbD 0 = true → (s.view k).sTag j.watch = false) →
      ∃ t, exec j.cmd s = .next t ∧ CoreStep s t k.core [] (jumpCore s k pg j.writes) ∧
        (((s.view k).pGet pg).getLsbD 0 = true ∧ j.taken →
          (t.core k.core).next = j.target ∧ (t.core k.core).owed = 2) ∧
        (¬(((s.view k).pGet pg).getLsbD 0 = true ∧ j.taken) → (t.core k.core).next = followIx s k)

/-- R108, R79, R140: LDS loads eight bytes of scratch into sd with the tag of their word, unless a range it reads is yet
to be written. -/
def Sys2Proof.Claims.ScalarLoad : Prop :=
  ∀ (k : At) (pg : PReg) (sd sa : SReg) (imm : BitVec 40) (s : State), Issues s (.lds k pg sd sa imm) →
    (s.view k).pTag pg = false → (s.view k).sTag sa = false → ((s.view k).pGet pg).getLsbD 0 = true →
    InScratch (scalarAddr (s.view k) sa imm) 8 → (s.core k.core).readBusy (scalarAddr (s.view k) sa imm, 8) = false →
    ∃ t v, exec (.lds k pg sd sa imm) s = .next t ∧
      (∀ i < 8, v.extractLsb' (8 * i) 8 = (s.core k.core).scratch.byte (scalarAddr (s.view k) sa imm + i)) ∧
      CoreStep s t k.core []
        (scalarCore s k pg sd v ((s.core k.core).scratchTag (scalarAddr (s.view k) sa imm)))

/-- R108, R86: STS stores sd into eight bytes of scratch; a poisoned sd poisons their word, a clean one leaves its tag.
Every other byte and tag is as it was. -/
def Sys2Proof.Claims.ScalarStore : Prop :=
  ∀ (k : At) (pg : PReg) (sd sa : SReg) (imm : BitVec 40) (s : State), Issues s (.sts k pg sd sa imm) →
    (s.view k).pTag pg = false → (s.view k).sTag sa = false → ((s.view k).pGet pg).getLsbD 0 = true →
    InScratch (scalarAddr (s.view k) sa imm) 8 → (s.core k.core).writeBusy (scalarAddr (s.view k) sa imm, 8) = false →
    ∃ t c, exec (.sts k pg sd sa imm) s = .next t ∧ CoreStep s t k.core [] c ∧ c.kept = (s.core k.core).kept ∧
      (∀ a, c.hand.byte a = (s.core k.core).hand.byte a ∧ c.vault.mem.byte a = (s.core k.core).vault.mem.byte a) ∧
      (∀ i < 8, c.scratch.byte (scalarAddr (s.view k) sa imm + i) = ((s.view k).sGet sd).extractLsb' (8 * i) 8) ∧
      (∀ a, (a < scalarAddr (s.view k) sa imm ∨ scalarAddr (s.view k) sa imm + 8 ≤ a) →
        c.scratch.byte a = (s.core k.core).scratch.byte a) ∧
      (∀ a, c.scratchTag a = ((s.core k.core).scratchTag a
        || (decide (a / 32 = scalarAddr (s.view k) sa imm / 32) && (s.view k).sTag sd)))

/-- R81, R109, R110: CRD reads a hand-visible register of the core, CTR a schedule counter, never poisoned. -/
def Sys2Proof.Claims.ControlRead : Prop :=
  ∀ (k : At) (pg : PReg) (sd : SReg) (s : State),
    (∀ row ∈ handVisible k.core, Issues s (.crd k pg sd row.1) → ∃ t, exec (.crd k pg sd row.1) s = .next t ∧
      CoreStep s t k.core [] (scalarCore s k pg sd (s.reg row.2) false)) ∧
    (∀ row ∈ counterTable s, Issues s (.ctr k pg sd row.1) → ∃ t, exec (.ctr k pg sd row.1) s = .next t ∧
      CoreStep s t k.core [] (scalarCore s k pg sd row.2 false))

/-- R109, R5, R6, R65: CWR of a clean source under a permitting guard clears in CORE_NUM_FLAGS the flags whose bits are 1,
but for those that hardware has set in the same cycle, writes the enables [4:1] of CORE_NUM_EVENT_EN, and leaves the other hand-visible registers as they were. -/
def Sys2Proof.Claims.ControlWrite : Prop :=
  ∀ (k : At) (pg : PReg) (sd : SReg) (s : State),
    (s.view k).pTag pg = false → (s.view k).sTag sd = false → ((s.view k).pGet pg).getLsbD 0 = true →
    ∀ row ∈ handVisible k.core, Issues s (.cwr k pg sd row.1) → ∃ t, exec (.cwr k pg sd row.1) s = .next t ∧
      CoreStep s t k.core [Reg.CORE_NUM_FLAGS k.core, Reg.CORE_NUM_EVENT_EN k.core] (s.core k.core) ∧
      (∀ i < 64, (t.reg (Reg.CORE_NUM_FLAGS k.core)).getLsbD i = ((s.reg (Reg.CORE_NUM_FLAGS k.core)).getLsbD i &&
        !(decide (row.1 = 0x200 ∧ (i ≤ 4 ∨ 6 ≤ i ∧ i ≤ 29)) && ((s.view k).sGet sd).getLsbD i
          && !(s.guardedAt (Reg.CORE_NUM_FLAGS k.core)).getLsbD i))) ∧
      (∀ i < 64, (t.reg (Reg.CORE_NUM_EVENT_EN k.core)).getLsbD i =
        if row.1 = 0x208 ∧ 1 ≤ i ∧ i ≤ 4 then ((s.view k).sGet sd).getLsbD i
        else (s.reg (Reg.CORE_NUM_EVENT_EN k.core)).getLsbD i)

/-- R113, R114, R115: a bundle opened by TIME issues at its earliest cycle or later, one opened by TBAR from its trick
on, when no deadline is missed; REND issues at once and ends the core's rubber. Before that TIME and TBAR wait. -/
def Sys2Proof.Claims.ReleaseInstructions : Prop :=
  (∀ (k : At) (ev dv : Bool) (e d : BitVec 24) (s : State), Issues s (.time k ev dv e d) → (s.core k.core).waiting = none →
    (s.core k.core).readySince.getD s.seat.trick = s.seat.trick →
    (k.lead = true → (ev = true → e.toNat ≤ s.seat.cycle.toNat) ∧ (dv = true → s.seat.cycle.toNat ≤ d.toNat)) →
    ∃ t, exec (.time k ev dv e d) s = .next t ∧ (t.core k.core).next = followIx s k ∧
      (t.core k.core).Like (s.core k.core) ∧ CoresBut [k.core] s t ∧ PiecesBut [.power, .seat, .notes] s t ∧ SamePower s t ∧
      (∀ a, a ∉ coreCounters k.core → t.reg a = s.reg a) ∧ t.seat = { s.seat with margin := t.seat.margin } ∧ t.seat.margin.1 ≤ s.seat.margin.1) ∧
  (∀ (k : At) (m : BitVec 24) (s : State), Issues s (.tbar k m) → (s.core k.core).waiting = none →
    (k.lead = true → s.seat.trick.toNat = m.toNat ∧ s.seat.cycle = 0) →
    ∃ t, exec (.tbar k m) s = .next t ∧ (t.core k.core).next = followIx s k ∧ CoreStep s t k.core [] (s.core k.core)) ∧
  (∀ (k : At) (s : State), Issues s (.rend k) → ∃ t, exec (.rend k) s = .next t ∧
    CoreStep s t k.core [] { s.core k.core with ended := true })

/-- R84, R113, R114: a bundle that TIME or TBAR opens before its cycle or its trick does not issue: it waits, and
nothing else happens. -/
def Sys2Proof.Claims.ReleaseWaits : Prop :=
  (∀ (k : At) (dv : Bool) (e d : BitVec 24) (s : State), Issues s (.time k true dv e d) → k.lead = true → (s.core k.core).waiting = none →
    (s.core k.core).readySince.getD s.seat.trick = s.seat.trick → s.seat.cycle.toNat < e.toNat → ∃ t w, exec (.time k true dv e d) s = .next t ∧
      CoreStep s t k.core [] (s.core k.core) ∧ (t.core k.core).next = (s.core k.core).next ∧
      (t.core k.core).waiting = some w ∧ w.earliest = some e ∧ w.deadline = (if dv then some d else none)) ∧
  (∀ (k : At) (m : BitVec 24) (s : State), Issues s (.tbar k m) → k.lead = true → s.seat.trick.toNat < m.toNat →
    ∃ t w, exec (.tbar k m) s = .next t ∧ CoreStep s t k.core [] (s.core k.core) ∧
      (t.core k.core).next = (s.core k.core).next ∧ (t.core k.core).waiting = some w ∧ w.tbar = some m)

/-! ### Vectors -/

namespace Sys2Proof.Claims

open Sys2Proof.Machine

/-- The unused fields of a V-format word are zero (R101): operand B is VB or, with BX = 1, s[SX]. -/
def CleanB (f : VForm) : Prop := (f.bx = true → f.vb = 0) ∧ (f.bx = false → f.sx = 0)

/-- Lane i of an operand: its value and its tag. -/
abbrev LaneOf := Nat → Nat × Bool

/-- What a lane-wise instruction leaves in vector register vd: enabled lanes take their results, disabled ones keep
theirs; the tag of a 32-bit group is set by a poisoned result in it, and kept from before where a lane of it is disabled
(R68, R86); under a poisoned guard every lane keeps its value and every group is poisoned (R87, R103). -/
def LanesWritten (s : State) (k : At) (pg : PReg) (vd : VReg) (w : Nat) (new : LaneOf) (v : Vec) (tags : BitVec 32) :
    Prop :=
  let old := (s.core k.core).regs
  let g := (s.view k).pGet pg
  if (s.view k).pTag pg = true then v = old.vGet vd ∧ tags = BitVec.allOnes 32
  else
    (∀ i < 1024 / w, lane v w i = if g.getLsbD (i * w / 8) then (new i).1 % 2 ^ w else lane (old.vGet vd) w i) ∧
    (∀ j < 32, tags.getLsbD j = true ↔
      (∃ i < 1024 / w, i * w / 32 = j ∧ g.getLsbD (i * w / 8) = true ∧ (new i).2 = true) ∨
      ((old.vTag vd).getLsbD j = true ∧ ∃ i < 1024 / w, i * w / 32 = j ∧ g.getLsbD (i * w / 8) = false))

/-- A command completes with exactly a lane-wise result in vd, and changes of the control registers in `w`. -/
def LaneResult (s : State) (k : At) (f : VForm) (cmd : Instr) (width : Nat) (new : LaneOf) (w : List Nat) (t : State) :
    Prop :=
  exec cmd s = .next t ∧ ∃ v tags, LanesWritten s k f.pg f.vd width new v tags ∧
    CoreStep s t k.core w { s.core k.core with regs := (s.core k.core).regs.vPut f.vd v tags }

/-- The integer lane instructions with the result of lanes a and b of w bits (R104). -/
def intTable (k : At) (f : VForm) : List (Instr × (Nat → Nat → Nat → Int)) :=
  [(.vaddI k f, fun w a b => signed w a + signed w b), (.vsubI k f, fun w a b => signed w a - signed w b),
   (.vmulI k f, fun w a b => signed w a * signed w b), (.vminI k f, fun w a b => min (signed w a) (signed w b)),
   (.vmaxI k f, fun w a b => max (signed w a) (signed w b)), (.vand k f, fun _ a b => (a &&& b : Nat)),
   (.vor k f, fun _ a b => (a ||| b : Nat)), (.vxor k f, fun _ a b => (a ^^^ b : Nat)),
   (.vshl k f, fun w a b => a * 2 ^ (b % w)), (.vshr k f, fun w a b => a / 2 ^ (b % w)),
   (.vsra k f, fun w a b => signed w a / 2 ^ (b % w))]

/-- The float lane instructions of one or two operands and of three, with the encoding of the result of lanes a, b and c
(R104, R117): exact, then rounded once with RM, SR and reserved modes as RNE; VMIN, VMAX, VABS and VNEG do not
round. -/
def floatTable (k : At) (f : VForm) : List (Instr × (Fmt → Rm → Nat → Nat → Nat → Nat)) :=
  let n := Num.ofFloat
  let top := fun m : Fmt => 2 ^ (m.width - 1)
  [(.vaddF k f, fun m rm a b _ => ((n m a).add (rm == .rdn) (n m b)).round m rm),
   (.vsubF k f, fun m rm a b _ => ((n m a).add (rm == .rdn) (n m b).negate).round m rm),
   (.vmulF k f, fun m rm a b _ => ((n m a).mul (n m b)).round m rm),
   (.vfmaF k f, fun m rm a b c => (((n m a).mul (n m b)).add (rm == .rdn) (n m c)).round m rm),
   (.vminF k f, fun m _ a b _ => minMaxF m false a b), (.vmaxF k f, fun m _ a b _ => minMaxF m true a b),
   (.vabsF k f, fun m _ a _ _ => if (n m a).isNan then m.nanCode else a % top m),
   (.vnegF k f, fun m _ a _ _ => if (n m a).isNan then m.nanCode else (a + top m) % (2 * top m))]

/-- The fields that each float instruction leaves zero (R101): one operand for VABS and VNEG, three for VFMA; RM is used
by the four that round. -/
def FloatClean (f : VForm) (cmd : Instr) (k : At) : Prop :=
  f.w = 0 ∧ f.imm = 0 ∧ f.fmt.toNat ≤ 2 ∧
    (cmd = .vabsF k f ∨ cmd = .vnegF k f → f.vb = 0 ∧ f.vc = 0 ∧ f.rm = 0 ∧ f.sx = 0 ∧ f.bx = false) ∧
    (cmd ≠ .vabsF k f ∧ cmd ≠ .vnegF k f → CleanB f) ∧ (cmd ≠ .vfmaF k f → f.vc = 0) ∧
    (cmd = .vminF k f ∨ cmd = .vmaxF k f → f.rm = 0)

/-- The rounding mode of a vector float instruction (R117). -/
def roundingOf (rm : BitVec 3) : Rm :=
  if rm = 1 then .rtz else if rm = 2 then .rdn else if rm = 3 then .rup else .rne

/-- The tag of a float result: VABS and VNEG read VA, VFMA reads VC too. -/
def floatTag (k : At) (f : VForm) (cmd : Instr) (a b c : Bool) : Bool :=
  if cmd = .vabsF k f ∨ cmd = .vnegF k f then a else if cmd = .vfmaF k f then a || b || c else a || b

/-- The compares with their relation of lanes a and b (R118): the float ones by value, none but NE true with a NaN. -/
def compareTable (k : At) (f : VForm) : List (Instr × Bool × (Nat → Nat → Bool)) :=
  let n := Num.ofFloat f.flt
  let z := signed (widthOfW f.w)
  [(.vcmpEqF k f, true, fun a b => (n a).eq (n b)), (.vcmpNeF k f, true, fun a b => !(n a).eq (n b)),
   (.vcmpLtF k f, true, fun a b => (n a).lt (n b)), (.vcmpLeF k f, true, fun a b => (n a).lt (n b) || (n a).eq (n b)),
   (.vcmpEqI k f, false, fun a b => decide (z a = z b)), (.vcmpNeI k f, false, fun a b => decide (z a ≠ z b)),
   (.vcmpLtI k f, false, fun a b => decide (z a < z b)), (.vcmpLeI k f, false, fun a b => decide (z a ≤ z b))]

/-- The lane width of VSEL and VBCAST: W with FMT 0, else 16 (R118). -/
def moveWidth (f : VForm) : Nat := if f.fmt = 0 then 8 * 2 ^ f.w.toNat else 16

/-- The selects and moves that write lanes, each with the conditions of its encoding (R101, R102, R118), its lane width
and its results. -/
def moveTable (k : At) (f : VForm) (r : RegFile) : List (Instr × Prop × Nat × LaneOf) :=
  let w := moveWidth f
  let x := widthOfW f.w
  let wOk := f.fmt.toNat ≤ 2 ∧ f.w ≠ 3 ∧ (f.fmt ≠ 0 → f.w = 0)
  [(.vsel k f, wOk ∧ f.vc.val < 16 ∧ f.rm = 0 ∧ f.imm = 0 ∧ CleanB f, w, fun i =>
     let pc : PReg := ⟨f.vc.val % 16, by omega⟩
     if (r.pGet pc).getLsbD (i * w / 8) then ((f.laneA r w i).1, r.pTag pc || (f.laneA r w i).2)
     else ((f.laneB r w i).1, r.pTag pc || (f.laneB r w i).2)),
   (.vbcast k f, wOk ∧ f.va = 0 ∧ f.vb = 0 ∧ f.vc = 0 ∧ f.rm = 0 ∧ f.imm = 0 ∧ f.bx = false, w, fun _ =>
     ((r.sGet f.sx).toNat, r.sTag f.sx)),
   (.vperm k f, f.w ≠ 3 ∧ f.fmt = 0 ∧ f.vc = 0 ∧ f.rm = 0 ∧ f.imm = 0 ∧ f.sx = 0 ∧ f.bx = false, x, fun i =>
     let j := lane (r.vGet f.vb) x i % (1024 / x)
     (lane (r.vGet f.va) x j, laneTag (r.vTag f.va) x j || laneTag (r.vTag f.vb) x i)),
   (.vins k f, f.w ≠ 3 ∧ f.fmt = 0 ∧ f.vb = 0 ∧ f.vc = 0 ∧ f.rm = 0 ∧ f.bx = false ∧ f.imm.toNat < 1024 / x, x, fun i =>
     if i = f.imm.toNat then ((r.sGet f.sx).toNat, r.sTag f.sx) else f.laneA r x i)]

/-- The reductions with the lane width, the value of an enabled lane and of a disabled one, and the combination of
neighbours (R124). -/
def reduceTable (k : At) (f : VForm) : List (Instr × Prop × Nat × (Nat → Nat) × Nat × (Nat → Nat → Nat)) :=
  let fl := f.fmt.toNat ≤ 2 ∧ f.w = 0
  let n := Num.ofFloat f.flt
  [(.vredAddF k f, fl, f.flt.width, fun a => rne32 (n a), 0, fun a b => add32 a b),
   (.vredMaxF k f, fl, f.flt.width, fun a => a, encodeInf f.flt true, minMaxF f.flt true),
   (.vredMinF k f, fl, f.flt.width, fun a => a, encodeInf f.flt false, minMaxF f.flt false),
   (.vredAddI k f, f.fmt = 0 ∧ f.w ≠ 3, widthOfW f.w, fun a => unsigned 32 (signed (widthOfW f.w) a), 0,
     fun a b => (a + b) % 2 ^ 32)]

/-- The balanced tree that joins 2^n values, neighbours first: v(i) at leaf i. -/
def treeValue (join : Nat → Nat → Nat) (v : Nat → Nat) : Nat → Nat → Nat
  | 0, i => v i
  | n + 1, i => join (treeValue join v n (2 * i)) (treeValue join v n (2 * i + 1))

end Sys2Proof.Claims

/-- R68, R104, R86, R87, R103: the integer lane instructions, lanes modulo 2^w. -/
def Obligations.VectorIntegerResult : Prop :=
  ∀ (k : At) (f : VForm) (s : State),
    f.w ≠ 3 → f.fmt = 0 → f.vc = 0 → f.rm = 0 → f.imm = 0 → CleanB f →
    ∀ row ∈ intTable k f, Issues s row.1 → ∃ t, LaneResult s k f row.1 (widthOfW f.w) (fun i =>
      (unsigned (widthOfW f.w) (row.2 (widthOfW f.w) (f.laneA (s.view k) (widthOfW f.w) i).1
          (f.laneB (s.view k) (widthOfW f.w) i).1),
        (f.laneA (s.view k) (widthOfW f.w) i).2 || (f.laneB (s.view k) (widthOfW f.w) i).2)) [] t

/-- R104, R117, R65: the float lane instructions, lanes of the width of FMT; a reserved or stochastic RM rounds to
nearest even and sets CONV_INVALID. -/
def Obligations.VectorFloatResult : Prop :=
  ∀ (k : At) (f : VForm) (s : State),
    ∀ row ∈ floatTable k f, Issues s row.1 → FloatClean f row.1 k → ∃ t, LaneResult s k f row.1 f.flt.width (fun i =>
      (row.2 f.flt (roundingOf f.rm) (f.laneA (s.view k) f.flt.width i).1 (f.laneB (s.view k) f.flt.width i).1
          (f.laneC (s.view k) f.flt.width i).1,
        floatTag k f row.1 (f.laneA (s.view k) f.flt.width i).2 (f.laneB (s.view k) f.flt.width i).2
          (f.laneC (s.view k) f.flt.width i).2)) [Reg.CORE_NUM_FLAGS k.core] t ∧
      t.reg (Reg.CORE_NUM_FLAGS k.core) =
        s.reg (Reg.CORE_NUM_FLAGS k.core) ||| (if 4 ≤ f.rm.toNat then 4 else 0)

/-- R118, R68, R86: a compare writes every predicate bit of each enabled lane and leaves the others; p0 discards it. -/
def Obligations.VectorCompareResult : Prop :=
  ∀ (k : At) (f : VForm) (s : State),
    f.vd.val < 16 → f.vc = 0 → f.rm = 0 → f.imm = 0 → CleanB f →
    ∀ row ∈ compareTable k f, Issues s row.1 → (if row.2.1 then f.fmt.toNat ≤ 2 ∧ f.w = 0 else f.fmt = 0 ∧ f.w ≠ 3) →
      ∃ t v x, exec row.1 s = .next t ∧
        CoreStep s t k.core [] { s.core k.core with
          regs := if (s.view k).pTag f.pg then (s.core k.core).regs.pTaint ⟨f.vd.val % 16, by omega⟩
            else (s.core k.core).regs.pPut ⟨f.vd.val % 16, by omega⟩ v x } ∧
        (∀ i < 128,
          let w := if row.2.1 then f.flt.width else widthOfW f.w
          let l := i / (w / 8)
          v.getLsbD i = if ((s.view k).pGet f.pg).getLsbD (l * w / 8)
            then row.2.2 (f.laneA (s.view k) w l).1 (f.laneB (s.view k) w l).1
            else ((s.core k.core).regs.pGet ⟨f.vd.val % 16, by omega⟩).getLsbD i) ∧
        (x = true ↔
          let w := if row.2.1 then f.flt.width else widthOfW f.w
          (∃ l < 1024 / w, ((s.view k).pGet f.pg).getLsbD (l * w / 8) = true ∧
            ((f.laneA (s.view k) w l).2 || (f.laneB (s.view k) w l).2) = true) ∨
          ((s.core k.core).regs.pTag ⟨f.vd.val % 16, by omega⟩ = true ∧
            ∃ l < 1024 / w, ((s.view k).pGet f.pg).getLsbD (l * w / 8) = false))

/-- R118, R87: VSEL, VBCAST, VPERM and VINS write lanes; VEXT writes the lane that IMM names into s[SX] where its guard
bit permits. -/
def Obligations.VectorMoveResult : Prop :=
  (∀ (k : At) (f : VForm) (s : State), ∀ row ∈ moveTable k f (s.view k), Issues s row.1 → row.2.1 →
    ∃ t, LaneResult s k f row.1 row.2.2.1 row.2.2.2 [] t) ∧
  (∀ (k : At) (f : VForm) (s : State), Issues s (.vext k f) →
    f.w ≠ 3 → f.vd = 0 → f.vb = 0 → f.vc = 0 → f.fmt = 0 → f.rm = 0 → f.bx = false →
    f.imm.toNat < 1024 / widthOfW f.w →
    ∃ t, exec (.vext k f) s = .next t ∧ CoreStep s t k.core [] { s.core k.core with
      regs := if (s.view k).pTag f.pg then (s.core k.core).regs.sTaint f.sx
        else if ((s.view k).pGet f.pg).getLsbD (f.imm.toNat * widthOfW f.w / 8)
        then (s.core k.core).regs.sPut f.sx
          (BitVec.ofNat 64 (lane ((s.view k).vGet f.va) (widthOfW f.w) f.imm.toNat))
          (laneTag ((s.view k).vTag f.va) (widthOfW f.w) f.imm.toNat)
        else (s.core k.core).regs })

/-- R124: a reduction writes the value of the balanced tree over its lanes into the low bits of vd and zero above,
whatever the guard; the guard selects the lanes, and a poisoned enabled lane poisons the result's group. -/
def Obligations.VectorReduction : Prop :=
  ∀ (k : At) (f : VForm) (s : State),
    f.vb = 0 → f.vc = 0 → f.rm = 0 → f.imm = 0 → f.sx = 0 → f.bx = false →
    ∀ row ∈ reduceTable k f, Issues s row.1 → row.2.1 →
      ∃ t v tags, exec row.1 s = .next t ∧
        CoreStep s t k.core [] { s.core k.core with regs := (s.core k.core).regs.vPut f.vd v tags } ∧
        v = BitVec.ofNat 1024 (treeValue row.2.2.2.2.2 (fun i =>
            if ((s.view k).pGet f.pg).getLsbD (i * row.2.2.1 / 8)
            then row.2.2.2.1 (f.laneA (s.view k) row.2.2.1 i).1 else row.2.2.2.2.1)
          (Nat.log2 (1024 / row.2.2.1)) 0) ∧
        ((s.view k).pTag f.pg = true → tags = BitVec.allOnes 32) ∧
        ((s.view k).pTag f.pg = false → (tags = 1 ∨ tags = 0) ∧
          (tags = 1 ↔ ∃ i < 1024 / row.2.2.1, ((s.view k).pGet f.pg).getLsbD (i * row.2.2.1 / 8) = true ∧
            (f.laneA (s.view k) row.2.2.1 i).2 = true))

/-- R125, R86: VLD loads 32, 64, 128 bytes of scratch at s[SX] + IMM x size into the low lanes of vd and zeros above,
lane by lane as its guard permits. -/
def Sys2Proof.Claims.VectorLoad : Prop :=
  ∀ (k : At) (f : VForm) (s : State) (a : Nat), Issues s (.vld k f) →
    f.w ≠ 3 → f.va = 0 → f.vb = 0 → f.vc = 0 → f.fmt = 0 → f.rm = 0 → f.bx = false →
    (s.view k).pTag f.pg = false → (s.view k).sTag f.sx = false →
    a = (BitVec.ofInt 64 (((s.view k).sGet f.sx).toInt + f.imm.toInt * (32 * 2 ^ f.w.toNat))).toNat →
    InScratch a (32 * 2 ^ f.w.toNat) → (s.core k.core).readBusy (a, 32 * 2 ^ f.w.toNat) = false →
    ∃ t, LaneResult s k f (.vld k f) 8 (fun i =>
      if i < 32 * 2 ^ f.w.toNat then (((s.core k.core).scratch.byte (a + i)).toNat, (s.core k.core).scratchTag (a + i))
      else (0, false)) [] t

/-- R125, R86: VST stores the enabled bytes of va's low lanes into scratch; every other byte is as it was. A word's tag
is set by a poisoned byte stored in it, cleared when it is stored whole and clean, and else kept. -/
def Sys2Proof.Claims.VectorStore : Prop :=
  ∀ (k : At) (f : VForm) (s : State) (a : Nat), Issues s (.vst k f) →
    f.w ≠ 3 → f.vd = 0 → f.vb = 0 → f.vc = 0 → f.fmt = 0 → f.rm = 0 → f.bx = false →
    (s.view k).pTag f.pg = false → (s.view k).sTag f.sx = false →
    a = (BitVec.ofInt 64 (((s.view k).sGet f.sx).toInt + f.imm.toInt * (32 * 2 ^ f.w.toNat))).toNat →
    InScratch a (32 * 2 ^ f.w.toNat) → (s.core k.core).writeBusy (a, 32 * 2 ^ f.w.toNat) = false →
    ∃ t c, exec (.vst k f) s = .next t ∧ CoreStep s t k.core [] c ∧ c.kept = (s.core k.core).kept ∧
      (∀ b, c.hand.byte b = (s.core k.core).hand.byte b ∧ c.vault.mem.byte b = (s.core k.core).vault.mem.byte b) ∧
      (∀ b, c.scratch.byte b =
        if a ≤ b ∧ b < a + 32 * 2 ^ f.w.toNat ∧ ((s.view k).pGet f.pg).getLsbD (b - a) = true
        then BitVec.ofNat 8 (lane ((s.view k).vGet f.va) 8 (b - a)) else (s.core k.core).scratch.byte b) ∧
      (∀ b, (b < a ∨ a + 32 * 2 ^ f.w.toNat ≤ b) → c.scratchTag b = (s.core k.core).scratchTag b) ∧
      (∀ j < 2 ^ f.w.toNat, c.scratchTag (a + 32 * j) =
        if ∃ i < 32, ((s.view k).pGet f.pg).getLsbD (32 * j + i) = true ∧
          laneTag ((s.view k).vTag f.va) 8 (32 * j + i) = true then true
        else if ∀ i < 32, ((s.view k).pGet f.pg).getLsbD (32 * j + i) = true then false
        else (s.core k.core).scratchTag (a + 32 * j))

/-! ### Events beside an effect -/

namespace Sys2Proof.Claims

open Sys2Proof.Machine

/-- A core without its event buffer, its counts of lost records and sinks, and the requests on their way. -/
def calm (c : Core) : Core := { c with events := [], lostNext := 0, sinks := 0, sinkHeld := false, requests := [] }

/-- A step of core p that turns it into `d` but for its event buffer and request: the registers in `w`, CORE_EVT_STAT and
CORE_STAT may change with it, and nothing else. -/
def CoreStepEv (s t : State) (p : PCore) (w : List Nat) (d : Core) : Prop :=
  ∃ c, CoreStep s t p (w ++ [Reg.CORE_EVT_STAT p, Reg.CORE_STAT p]) c ∧ (calm c).Like (calm d)

/-! ### Arrays -/

/-- The fields that each array command leaves zero and the formats it accepts (R101, R126), with the array it names. -/
def ArrayForm (op : ArrOp) (f : MForm) : Prop :=
  f.ma.toNat < 6 ∧
  match op with
  | .mcfg => f.q = 0 ∧ f.buf = false ∧ f.t = false ∧ f.clr = false ∧ f.sc = false ∧ f.fmta = 0 ∧ f.fmtb = 0 ∧ f.n1 = 0
      ∧ f.imm = 0
  | .mlds => f.t = false ∧ f.clr = false ∧ f.fmtb = 0 ∧ f.n1 = 0 ∧ f.fmta.toNat ≤ 10
  | .feed => f.buf = false ∧ f.t = false ∧ f.clr = false ∧ f.fmta = 0 ∧ f.fmtb.toNat ≤ 10
  | .mma => f.sc = false ∧ f.sx = 0 ∧ f.sy = 0 ∧ f.imm = 0 ∧ f.fmta.toNat ≤ 10 ∧ f.fmtb.toNat ≤ 10
  | .mdrn => f.buf = false ∧ f.t = false ∧ f.sc = false ∧ f.fmta = 0 ∧ f.fmtb = 0 ∧ f.sy = 0 ∧ f.n1 = 0
  | .mpre => f.buf = false ∧ f.t = false ∧ f.clr = false ∧ f.sc = false ∧ f.fmta = 0 ∧ f.fmtb = 0 ∧ f.sy = 0 ∧ f.n1 = 0
  | .mclr => f.buf = false ∧ f.t = false ∧ f.clr = false ∧ f.sc = false ∧ f.fmta = 0 ∧ f.fmtb = 0 ∧ f.sx = 0 ∧ f.sy = 0
      ∧ f.n1 = 0 ∧ f.imm = 0

/-- The array commands that wait in the queue for a port, for steps or for the drain buffer. -/
def queuedTable (k : At) (f : MForm) : List (Instr × ArrOp) :=
  [(.mlds k f, .mlds), (.feed k f, .feed), (.mma k f, .mma), (.mdrn k f, .mdrn)]

/-- The arrays of a core move: it is clocked, and no power bubble falls on the cycle (R163, R379). -/
def Moves (s : State) (p : PCore) : Prop := s.clocked p = true ∧ s.bubble p = false

/-- The cycles of one step between operands of two formats (R130). -/
def stepCycles (f : MForm) : Nat :=
  if f.fmta = 0 ∨ f.fmtb = 0 then 16 else if f.fmta.toNat ≤ 2 ∨ f.fmtb.toNat ≤ 2 then 2 else 1

/-- n cycles of quadrant q have been classed (R162): its class stands in the array, and the cycles are counted. -/
def classed (x : Arr) (q : Fin 4) (cls : Fin 8) (n : Nat) : Arr :=
  { x with cls := x.cls.set q.val cls, spent := x.spent.set q.val (x.spent[q.val] + n) }

/-- No queued command of an array can take effect at once. -/
def Settled (x : Arr) : Prop := ∀ i c, x.queue[i]? = some c → x.turn i = true → x.instant c = false

/-- The guard permits and the operand registers that an array command uses are clean. -/
def ArrayOperands (s : State) (k : At) (f : MForm) (op : ArrOp) : Prop :=
  (s.view k).pTag f.pg = false ∧ ((s.view k).pGet f.pg).getLsbD 0 = true ∧
    (op ≠ .mma ∧ op ≠ .mclr → (s.view k).sTag f.sx = false) ∧ (op = .mcfg ∨ f.sc = true → (s.view k).sTag f.sy = false)

/-- The scratch ranges of a command lie in scratch, start at 32-byte boundaries and touch nothing pending (R79, R140). -/
def RangesFree (c : Core) (d : ArrCmd) : Prop :=
  (∀ r ∈ d.reads, r.2 ≠ 0 → r.1 % 32 = 0 ∧ r.1 + r.2 ≤ 0x300000 ∧ c.readBusy r = false) ∧
  (∀ r ∈ { d with addrOk := true }.writes, r.2 ≠ 0 → r.1 % 32 = 0 ∧ r.1 + r.2 ≤ 0x300000 ∧ c.writeBusy r = false)

/-- The array commands whose turn comes as they enter an empty queue. -/
def instantTable (k : At) (f : MForm) : List (Instr × ArrOp) :=
  [(.mcfg k f, .mcfg), (.mpre k f, .mpre), (.mclr k f, .mclr)]

/-- The core with the physical array that serves logical array a replaced. -/
def arrayCore (s : State) (p : PCore) (a : Nat) (x : Arr) : Core :=
  { s.core p with arrays := (s.core p).arrays.set (s.physArr a).val x }

/-- A position of the array lies outside the tile of quadrant q. -/
def OutsideTile (cfg : W64) (q i j : Nat) : Prop := ∀ r n, r < tileR cfg → n < tileR cfg → cellAt cfg q r n ≠ (i, j)

/-- A cell after the products of one step, in the order of their terms (R155): exact sums on the grid, FP32 sums rounded
once per product in float mode. -/
def steppedCell (k : Nat) (x : Arr) (c : ArrCmd) (e : Operand) (r n : Nat) (y : Cell) : Cell :=
  let R := tileR x.cfg
  let d := tileD x.cfg
  let fa := (Fmt.ofCode c.f.fmta.toNat).getD .f32
  (List.range d).foldl (fun y j =>
    let a := stationary k x.bufs[c.f.bufIx.val] c.f.t R d c.step n j
    let b := e.elems.getD (r * d + j) { code := 0, scale := 127, poison := false }
    let v := (a.value fa).mul (b.value e.fmt)
    if bit x.cfg 53 then (y.addFloat v (a.poison || b.poison)).1
    else (y.addGrid (signed 9 (fld x.cfg 63 55)) v (a.poison || b.poison) (fa == .f32 || e.fmt == .f32)).1) y

end Sys2Proof.Claims

/-- R134, R127: an array command that waits joins the end of its array's queue of four when it issues; the array is the
physical one that serves its logical array in this rubber (R166). -/
def Obligations.ArrayCommandQueued : Prop :=
  ∀ (k : At) (f : MForm) (s : State), ∀ row ∈ queuedTable k f, Issues s row.1 →
    let x := s.arr k.core f.ma.toNat
    ArrayForm row.2 f → ArrayOperands s k f row.2 → x.queue.length < 4 → Settled x →
    (row.2 = .mdrn → bit x.cfg 54 = true ∨ f.q = 0) →
    RangesFree (s.core k.core) (mkCmd row.2 f (s.view k) x.pendingCfg 0 0) →
    ∃ t c, exec row.1 s = .next t ∧
      CoreStep s t k.core [] { arrayCore s k.core f.ma.toNat { x with queue := x.queue ++ [c] } with
        drains := (s.core k.core).drains + (if row.2 = .mdrn then 1 else 0) } ∧
      c = { mkCmd row.2 f (s.view k) x.pendingCfg (BitVec.ofNat 13 (bundleIx s k)) (s.core k.core).drains with addrOk := true }

/-- R129, R135, R138: on an array with an empty queue MCFG, MCLR and MPRE take effect as they issue. MCFG sets
configuration and masks and clears what a change of mode, depth or number form clears; MCLR clears the cells of its tile;
MPRE loads them from scratch, a grid value as one term; the cycles that they take are of class CONTROL (R162). -/
def Obligations.ArrayCommandTakesEffect : Prop :=
  ∀ (k : At) (f : MForm) (s : State), ∀ row ∈ instantTable k f, Issues s row.1 →
    let x := s.arr k.core f.ma.toNat
    let r := s.view k
    ArrayForm row.2 f → ArrayOperands s k f row.2 → x.queue = [] → x.drain = none →
    (row.2 = .mcfg → fld (r.sGet f.sx) 41 0 = 0 ∧ fld (r.sGet f.sx) 50 47 ≤ 4) →
    (row.2 ≠ .mcfg → bit x.cfg 54 = true ∨ f.q = 0) →
    RangesFree (s.core k.core) (mkCmd row.2 f r x.cfg 0 0) →
    ∃ t y, exec row.1 s = .next t ∧
      CoreStep s t k.core [Reg.CORE_NUM_FLAGS k.core] (arrayCore s k.core f.ma.toNat y) ∧
      (row.2 = .mcfg →
        let w := r.sGet f.sx
        let tile := bit w 54 ≠ bit x.cfg 54 ∨ bit w 42 ≠ bit x.cfg 42
        y.cfg = w ∧ y.mask = r.sGet f.sy ∧ y.queue = [] ∧ y.drain = none ∧
        (∀ q ∈ x.tiles, y.cls[q.val] = 6 ∧ y.spent[q.val] = x.spent[q.val] + 1) ∧
        (∀ i < 32, ∀ j < 32, y.cell i j = if tile ∨ bit w 53 ≠ bit x.cfg 53 then Cell.zero else x.cell i j) ∧
        y.bufs = (if tile then Vector.replicate 8 none else x.bufs) ∧
        y.feeders = (if tile then Vector.replicate 4 [] else x.feeders)) ∧
      (row.2 ≠ .mcfg → y = { classed x f.q 6 (if row.2 = .mclr then 1
            else (tileR x.cfg * tileR x.cfg * (if bit x.cfg 53 then 4 else 8) + 63) / 64) with cells := y.cells } ∧
        ∀ i < 32, ∀ j < 32, OutsideTile x.cfg f.q.val i j → y.cell i j = x.cell i j) ∧
      (row.2 = .mclr → ∀ i < tileR x.cfg, ∀ j < tileR x.cfg,
        y.cell (cellAt x.cfg f.q.val i j).1 (cellAt x.cfg f.q.val i j).2 = Cell.zero) ∧
      (row.2 = .mpre → ∀ i < tileR x.cfg, ∀ j < tileR x.cfg,
        let z := if bit x.cfg 53 then 4 else 8
        let a := (r.sGet f.sx + BitVec.ofNat 64 (32 * f.imm.toNat)).toNat + (tileR x.cfg * i + j) * z
        let v := leNat ((s.core k.core).scratch.bytes a z)
        y.cell (cellAt x.cfg f.q.val i j).1 (cellAt x.cfg f.q.val i j).2 =
          { sum := if bit x.cfg 53 then v else if v = 2 ^ 63 then 0 else signed 64 v,
            terms := if bit x.cfg 53 then 0 else 1, big := false, invalid := !bit x.cfg 53 && v == 2 ^ 63,
            poison := (s.core k.core).scratchTag a })

/-- R133, R135, R158: on an array whose only command is an MLDS or a FEED that its shape does not reject, a port read
takes the next word of data, and of scales where some are left; the last one fills the buffer or the feeder. -/
def Obligations.ArrayPortReads : Prop :=
  ∀ (p : PCore) (a : ArrIx) (s : State) (c : ArrCmd), let x := s.arr p a.val
    Moves s p → x.queue = [c] → c.poisoned = false → (c.words = [] → c.portReason = none) → c.words.length < c.nwords →
    (c.op = .mlds → ∃ t y, exec (.loadPortRead p a) s = .next t ∧
      CoreStepEv s t p [Reg.CORE_NUM_FLAGS p] (arrayCore s p a.val y) ∧
      y = (if c.words.length + 1 < c.nwords then { x with queue := [c.readWord (s.core p)] }
        else { x with queue := [], bufs := (x.bufs.set c.f.bufIx.val
          (some ({ fmt := c.fmt, elems := (c.readWord (s.core p)).loaded 0 c.elems } : Operand))) })) ∧
    (c.op = .feed → (x.feeders[c.f.q.val]).length + (c.f.n1.toNat + 1) ≤ feederCap c.cfg →
      ∃ t y, exec (.feedPortRead p a) s = .next t ∧
      CoreStepEv s t p [Reg.CORE_NUM_FLAGS p] (arrayCore s p a.val y) ∧
      y = { x with
        queue := (if c.words.length + 1 < c.nwords
          then [{ c.readWord (s.core p) with step := c.filled (c.words.length + 1) }] else []),
        feeders := (x.feeders.set c.f.q.val (x.feeders[c.f.q.val] ++
          (List.range (c.filled (c.words.length + 1) - c.step)).map fun j =>
            (⟨c.fmt, (c.readWord (s.core p)).loaded ((c.step + j) * (tileR c.cfg * tileD c.cfg))
                (tileR c.cfg * tileD c.cfg)⟩ : Operand))) })

/-- R155, R160, R163: a step of the MMA that alone is queued, with an operand in its feeder and shapes that agree, adds
the products of the step to every enabled cell of its tile, leaves every other cell, and takes the operand; the last step
takes the command. With CLR the first step starts from cleared cells. -/
def Obligations.ArrayStepMultiplies : Prop :=
  ∀ (p : PCore) (a : ArrIx) (q : Fin 4) (s : State) (c : ArrCmd) (e : Operand) (es : List Operand), let x := s.arr p a.val
    Moves s p → x.queue = [c] → c.op = .mma → c.poisoned = false → c.f.q = q → x.feeders[q.val] = e :: es →
    (c.step = 0 → x.mmaReason c = none) → e.fmt.code = c.f.fmtb.toNat →
    ∃ t y, exec (.mmaStep p a q) s = .next t ∧
      CoreStep s t p [Reg.CORE_NUM_FLAGS p] (arrayCore s p a.val y) ∧
      y = { classed x q 0 (stepCycles c.f) with
              cells := y.cells, feeders := x.feeders.set q.val es,
              queue := (if c.f.n1.toNat ≤ c.step then [] else [{ c with step := c.step + 1 }]) } ∧
      (∀ i < 32, ∀ j < 32, OutsideTile x.cfg q.val i j → y.cell i j = x.cell i j) ∧
      (∀ r < tileR x.cfg, ∀ n < tileR x.cfg,
        let ij := cellAt x.cfg q.val r n
        let old := if c.step = 0 ∧ c.f.clr = true then Cell.zero else x.cell ij.1 ij.2
        y.cell ij.1 ij.2 = if x.enabled ij.1 ij.2 then steppedCell s.draws x c e r n old else old)

/-- R137, R164, R57, R86: the MDRN that alone is queued, with the drain buffer free, puts the delivered values of its
tile row by row into the drain buffer, each word poisoned if a cell of it is; with CLR it clears the tile. -/
def Sys2Proof.Claims.ArrayDrainSnapshot : Prop :=
  ∀ (p : PCore) (a : ArrIx) (q : Fin 4) (s : State) (c : ArrCmd), let x := s.arr p a.val
    Moves s p → x.queue = [c] → c.op = .mdrn → c.poisoned = false → c.badTile x.cfg = false → c.f.q = q → x.drain = none →
    ∃ t y d, exec (.mdrnSnapshot p a q) s = .next t ∧ CoreStep s t p [] (arrayCore s p a.val y) ∧
      y = { classed x q 5 1 with cells := y.cells, drain := some d, queue := [] } ∧
      d.addr = c.x.toNat ∧ d.bundle = c.bundle ∧
      (∀ r < tileR x.cfg, ∀ n < tileR x.cfg, ∀ b < drainZ x.cfg,
        let ij := cellAt x.cfg q.val r n
        let i := tileR x.cfg * r + n
        d.data.getD (i * drainZ x.cfg + b) 0 = BitVec.ofNat 8 ((drainCell (s.drainRand p c i) x.cfg (x.cell ij.1 ij.2)).1 / 256 ^ b)) ∧
      (∀ i < 32, ∀ j < 32, (c.f.clr = false ∨ OutsideTile x.cfg q.val i j) → y.cell i j = x.cell i j) ∧
      (c.f.clr = true → ∀ r < tileR x.cfg, ∀ n < tileR x.cfg,
        y.cell (cellAt x.cfg q.val r n).1 (cellAt x.cfg q.val r n).2 = Cell.zero)

/-- R57, R58: what a grid cell delivers: its sum, saturated to -2^63 + 1 and 2^63 - 1 where it does not fit, and the
marker -2^63 where a value was invalid. -/
def Sys2Proof.Claims.GridCellDelivers : Prop :=
  ∀ c : Cell, (c.invalid = true → c.deliver.1 = 2 ^ 63) ∧
    (c.invalid = false → c.big = false → c.terms ≤ 65536 → signed 64 c.deliver.1 = max (-(2 ^ 63 - 1)) (min (2 ^ 63 - 1) c.sum)) ∧
    (c.invalid = false → (c.deliver.2 = true ↔ c.sum.natAbs > 2 ^ 63 - 1 ∨ c.big = true ∨ c.terms > 65536))

/-- R164, R59, R86: a drain's write-out puts its bytes into scratch from its address on and leaves every other byte, sets
the words' tags, adds its flags to CORE_NUM_FLAGS and frees the drain buffer. -/
def Sys2Proof.Claims.ArrayDrainWrites : Prop :=
  ∀ (p : PCore) (a : ArrIx) (s : State) (d : Drain), let x := s.arr p a.val
    Moves s p → x.drain = some d → x.queue = [] → d.addr % 32 = 0 → d.data.length = 32 * d.poison.length →
    ∃ t c, exec (.drainWriteOut p a) s = .next t ∧ CoreStepEv s t p [Reg.CORE_NUM_FLAGS p] c ∧
      c.kept = (arrayCore s p a.val { x with drain := none }).kept ∧
      (∀ b, c.scratch.byte b = if d.addr ≤ b ∧ b < d.addr + d.data.length then d.data.getD (b - d.addr) 0
        else (s.core p).scratch.byte b) ∧
      (∀ b, c.scratchTag b = if d.addr ≤ b ∧ b < d.addr + d.data.length then d.poison.getD ((b - d.addr) / 32) false
        else (s.core p).scratchTag b) ∧
      (∀ b, c.hand.byte b = (s.core p).hand.byte b ∧ c.vault.mem.byte b = (s.core p).vault.mem.byte b) ∧
      t.reg (Reg.CORE_NUM_FLAGS p) = s.reg (Reg.CORE_NUM_FLAGS p) ||| d.flags

/-! ### Conversions and activation -/

namespace Sys2Proof.Claims

open Sys2Proof.Machine

/-- Where a conversion's elements lie (R119): their number; the bit of its source at which element 0 begins; the bit of
its destination at which element 0 goes; the end of the bits of the destination that are written. -/
def convPlaces (ws wd part : Nat) : Nat × Nat × Nat × Nat :=
  let n := if max ws wd = 6 then 160 else 1024 / max ws wd
  if wd < ws then (n, 0, part * (n * wd), part * (n * wd) + n * wd) else (n, if ws < wd then part * (n * ws) else 0, 0, 1024)

/-- The part of a conversion exists: PART is 0 between equal widths, and the narrower elements fit the register (R119). -/
def PartOk (ws wd part : Nat) : Prop :=
  let n := if max ws wd = 6 then 160 else 1024 / max ws wd
  (ws = wd → part = 0) ∧ (part + 1) * (n * min ws wd) ≤ 1024

/-- Element l of the source of a conversion. -/
def sourceElem (f : VXForm) (r : RegFile) (l : Nat) : Nat :=
  let h := convPlaces f.src.width f.dst.width f.part.toNat
  ((r.vGet f.va).extractLsb' (h.2.1 + l * f.src.width) f.src.width).toNat

/-- The destination register of a conversion: element l is `new l`, the bits above the last element up to the end of what
is written are zero, and every other bit is as it was (R119). -/
def ConvWritten (f : VXForm) (old v : Vec) (new : Nat → Nat) : Prop :=
  let h := convPlaces f.src.width f.dst.width f.part.toNat
  let wd := f.dst.width
  (∀ l < h.1, (v.extractLsb' (h.2.2.1 + l * wd) wd).toNat = new l % 2 ^ wd) ∧
  (∀ i < 1024, h.2.2.1 + h.1 * wd ≤ i → i < h.2.2.2 → v.getLsbD i = false) ∧
  (∀ i < 1024, (i < h.2.2.1 ∨ h.2.2.2 ≤ i) → v.getLsbD i = old.getLsbD i)

/-- The random value of element l under RM = SR (R53, R122). -/
def convRand (s : State) (k : At) (f : VXForm) (l : Nat) : Nat :=
  s.random k.core f.stream.toNat ((s.view k).sGet f.sx + BitVec.ofNat 64 l)

/-- The fields of a conversion that are zero unless RM is SR. -/
def SrFields (f : VXForm) : Prop := f.rm ≠ 4 → f.sx = 0 ∧ f.stream = 0

end Sys2Proof.Claims

/-- R119, R120, R48, R50: VCVT converts every element; VQ quantises blocks of 32 or 16 and gives their scale codes in
s[SS]; VDQ multiplies every element by its block's scale, a scale of 0xFF giving NaN. Each sets its flags and may raise
their events. -/
def Sys2Proof.Claims.ConversionResult : Prop :=
  (∀ (k : At) (f : VXForm) (s : State), Issues s (.vcvt k f) → SrFields f → f.fmts.toNat ≤ 9 → f.fmtd.toNat ≤ 9 → f.b16 = false →
    f.ss = 0 → PartOk f.src.width f.dst.width f.part.toNat →
    ∃ t v tags, exec (.vcvt k f) s = .next t ∧
      CoreStepEv s t k.core [Reg.CORE_NUM_FLAGS k.core]
        { s.core k.core with regs := (s.core k.core).regs.vPut f.vd v tags } ∧
      ConvWritten f ((s.core k.core).regs.vGet f.vd) v fun l =>
        ((Num.decode f.src (sourceElem f (s.view k) l)).conv f.dst (Rm.ofCode f.rm.toNat) (convRand s k f l) f.sat).code) ∧
  (∀ (k : At) (f : VXForm) (s : State), Issues s (.vq k f) → SrFields f → f.fmts.toNat ≤ 2 → 3 ≤ f.fmtd.toNat →
    f.fmtd.toNat ≤ 10 → f.sat = false → PartOk f.src.width f.dst.width f.part.toNat →
    let n := (convPlaces f.src.width f.dst.width f.part.toNat).1
    let b := if f.b16 then 16 else 32
    let block := fun j => (List.range (min b (n - j * b))).map fun i => Num.decode f.src (sourceElem f (s.view k) (j * b + i))
    let q := fun j => quantBlock f.dst (Rm.ofCode f.rm.toNat) (fun i => convRand s k f (j * b + i)) (block j)
    ∃ t v tags x y, exec (.vq k f) s = .next t ∧
      CoreStepEv s t k.core [Reg.CORE_NUM_FLAGS k.core]
        { s.core k.core with regs := ((s.core k.core).regs.vPut f.vd v tags).sPut f.ss x y } ∧
      ConvWritten f ((s.core k.core).regs.vGet f.vd) v (fun l => (q (l / b)).2.1.getD (l % b) 0) ∧
      ∀ j < (n + b - 1) / b, lane x 8 j = (q j).1 % 256) ∧
  (∀ (k : At) (f : VXForm) (s : State), Issues s (.vdq k f) → SrFields f → 3 ≤ f.fmts.toNat → f.fmts.toNat ≤ 10 →
    f.fmtd.toNat ≤ 2 → PartOk f.src.width f.dst.width f.part.toNat →
    ∃ t v tags, exec (.vdq k f) s = .next t ∧
      CoreStepEv s t k.core [Reg.CORE_NUM_FLAGS k.core]
        { s.core k.core with regs := (s.core k.core).regs.vPut f.vd v tags } ∧
      ConvWritten f ((s.core k.core).regs.vGet f.vd) v fun l =>
        let c := lane ((s.view k).sGet f.ss) 8 (l / (if f.b16 then 16 else 32))
        if c = 255 then f.dst.nanCode
        else (((Num.decode f.src (sourceElem f (s.view k) l)).mul (.fin false 1 ((c : Int) - 127))).conv f.dst
          (Rm.ofCode f.rm.toNat) (convRand s k f l) f.sat).code)

/-- R121, R44: VTPACK clamps 160 INT8 lanes of a register pair to -1, 0 and +1 and packs five to a byte of part PART;
VTUNPK expands 32 such bytes into a pair, bytes 243 to 255 as zeros. -/
def Sys2Proof.Claims.TernaryPacking : Prop :=
  (∀ (k : At) (f : VXForm) (s : State), Issues s (.vtpack k f) → f.va.val % 2 = 0 → f.part.toNat ≤ 3 → f.fmts = 0 → f.fmtd = 0 →
    f.rm = 0 → f.sat = false → f.b16 = false → f.sx = 0 → f.ss = 0 → f.stream = 0 →
    let get := fun i => signed 8 (lane ((s.view k).vGet (if i < 128 then f.va else pairOf f.va)) 8 (i % 128))
    ∃ t v tags, exec (.vtpack k f) s = .next t ∧
      CoreStepEv s t k.core [Reg.CORE_NUM_FLAGS k.core]
        { s.core k.core with regs := (s.core k.core).regs.vPut f.vd v tags } ∧
      (∀ j < 32, (lane v 8 (32 * f.part.toNat + j) : Int) =
        ((List.range 5).map fun i => (max (-1) (min 1 (get (5 * j + i))) + 1) * 3 ^ i).sum) ∧
      (∀ j < 128, j / 32 ≠ f.part.toNat → lane v 8 j = lane ((s.core k.core).regs.vGet f.vd) 8 j)) ∧
  (∀ (k : At) (f : VXForm) (s : State), Issues s (.vtunpk k f) → f.vd.val % 2 = 0 → f.part.toNat ≤ 3 → f.fmts = 0 → f.fmtd = 0 →
    f.rm = 0 → f.sat = false → f.b16 = false → f.sx = 0 → f.ss = 0 → f.stream = 0 →
    ∃ t v tv u tu, exec (.vtunpk k f) s = .next t ∧
      CoreStepEv s t k.core [Reg.CORE_NUM_FLAGS k.core]
        { s.core k.core with regs := ((s.core k.core).regs.vPut f.vd v tv).vPut (pairOf f.vd) u tu } ∧
      (∀ i < 160, signed 8 (lane (if i < 128 then v else u) 8 (i % 128)) =
        let b := lane ((s.view k).vGet f.va) 8 (32 * f.part.toNat + i / 5)
        if b ≥ 243 then 0 else (b / 3 ^ (i % 5) % 3 : Nat) - (1 : Int)) ∧
      (∀ i < 128, 32 ≤ i → lane u 8 i = 0))

/-- R123: VACT evaluates the activation table at s[SX] + 32 x IMM of scratch on every enabled lane, a NaN giving the
canonical NaN. -/
def Obligations.ActivationResult : Prop :=
  ∀ (k : At) (f : VForm) (s : State) (a : Nat), Issues s (.vact k f) → f.vb = 0 → f.vc = 0 → f.fmt.toNat ≤ 2 → f.rm = 0 → f.w = 0 →
    f.bx = false → (s.view k).pTag f.pg = false → (s.view k).sTag f.sx = false →
    a = (BitVec.ofInt 64 (((s.view k).sGet f.sx).toInt + f.imm.toInt * 32)).toNat → a % 32 = 0 → a + 1056 ≤ 0x300000 →
    (s.core k.core).readBusy (a, 1056) = false →
    ∃ t, LaneResult s k f (.vact k f) f.flt.width (fun i =>
      let x := Num.ofFloat f.flt (f.laneA (s.view k) f.flt.width i).1
      let tag := (f.laneA (s.view k) f.flt.width i).2
      let c := s.core k.core
      if x.isNan then (f.flt.nanCode, tag)
      else match actEval (fun o => c.scratch.byte (a + o)) x with
        | none => (f.flt.nanCode, tag || c.scratchTag a)
        | some y => ((num32 y.1).round f.flt .rne, tag || c.scratchTag a || c.scratchTag (a + 32 + 16 * y.2))) [] t

/-! ### Transfers and deliveries -/

namespace Sys2Proof.Claims

open Sys2Proof.Machine

/-- The guard permits. -/
def Permits (s : State) (k : At) (pg : PReg) : Prop := (s.view k).pTag pg = false ∧ ((s.view k).pGet pg).getLsbD 0 = true

/-- The transfer queue has one of its 16 entries free (R141). -/
def QueueRoom (c : Core) : Prop := c.xq.length + c.ports.length < 16

/-- The transfer queue has room, and the command at its head, if any, waits for the channel or the units. -/
def QueueWaits (c : Core) : Prop :=
  QueueRoom c ∧ ∀ x, c.xq.head? = some x →
    (∃ d w, x.op = .load d w) ∨ (∃ o f t d a b v q, x.op = .ibop o f t d a b v q) ∨ ∃ d, x.op = .kvatt d

/-- The core with one more slot-3 instruction that holds a transfer-queue entry for n cycles, behind those that its block port
serves already (R141, R447). -/
def holding (c : Core) (port : Option Bool) (n : Nat) : Core :=
  let before := match port with
    | none => 0
    | some b => ((c.ports.filter fun h => h.port == some b).map (·.left)).foldl max 0
  { c with ports := c.ports ++ [{ port, left := before + n }] }

/-- A range of cnt 32-byte words of the vault or of sequence space may be accessed (R79, R80, R142): aligned, and inside the
vault or in mapped pages. -/
def RangeOk (s : State) (p : PCore) (f : XForm) (a : W64) : Prop :=
  a.toNat % 32 = 0 ∧
    if f.spc then ∀ x ∈ pagesOf a (32 * f.cnt.toNat), ∃ v, s.xlate p x = .mapped v
    else a.toNat + 32 * f.cnt.toNat ≤ 2 ^ 30

/-- The word indices of such a range. -/
def wordsOf (s : State) (p : PCore) (f : XForm) (a : W64) : List Nat :=
  (List.range f.cnt.toNat).map fun i => s.vaddr p f.spc (a + BitVec.ofNat 64 (32 * i)) / 32

/-- The core with a command put at the end of its transfer queue. -/
def queuedCore (s : State) (k : At) (op : XferOp) : Core :=
  { s.core k.core with
    xq := (s.core k.core).xq ++ [{ op, done := 0, bundle := BitVec.ofNat 13 (bundleIx s k), fails := 0 }] }

/-- The in-bank operations, with their number and which of the sources they read: operand a, operand b, and the scalar
register (R149). -/
def ibopTable (k : At) (f : XForm) : List (Instr × Nat × Bool × Bool × Option SReg) :=
  [(.ibopCopy k f, 0, true, false, none), (.ibopFill k f, 1, false, false, some f.sz),
   (.ibopAdd k f, 2, true, true, none), (.ibopMul k f, 3, true, true, none),
   (.ibopAxpy k f, 4, true, true, some ⟨(f.sz.val + 1) % 64, Nat.mod_lt _ (by decide)⟩),
   (.ibopScal k f, 5, true, false, some f.sz), (.ibopMax k f, 6, true, true, none),
   (.ibopAct k f, 7, true, false, none)]

/-- The fields of an in-bank operation that are zero, its format, its table number (R101, R149); IDX[15:12] is the
operation's own. -/
def IbopForm (f : XForm) (op : Nat) : Prop :=
  f.u = false ∧ f.tag = 0 ∧ f.cnt ≠ 0 ∧ fld f.idx 15 12 = op ∧ fld f.idx 11 8 ≤ 2 ∧ (op = 1 → f.sy = 0) ∧
    (op = 0 ∨ op = 7 → f.sz = 0) ∧ (if op = 7 then fld f.idx 7 4 = 0 else fld f.idx 7 0 = 0) ∧ (op = 4 → f.sz.val % 2 = 0)

/-- Rules 2 and 3 of R202: each destination word lies in the slice, bank and row, and at the place in its burst, of the
operand words beside it; the destination is one of the operand ranges or meets none. -/
def SameUnits (dst : List Nat) (ops : List (List Nat)) : Prop :=
  (∀ o ∈ ops, ∀ i : Nat, ∀ w v, dst[i]? = some w → o[i]? = some v → w / 2 ^ 15 = v / 2 ^ 15 ∧ w % 2 ^ 10 = v % 2 ^ 10) ∧
    (dst ∈ ops ∨ ∀ o ∈ ops, ∀ w ∈ dst, w ∉ o)

/-- The counters of the module. -/
def moduleCounters : List Nat := (List.range 8).map Reg.PMU_GCNT ++ [Reg.PMU_GOVF]

/-- The fields of a delivery that are zero (R101). -/
def DeliveryForm (f : XForm) : Prop :=
  f.spc = false ∧ f.u = false ∧ f.tag = 0 ∧ f.sy = 0 ∧ f.sz = 0 ∧ f.cnt ≠ 0 ∧ f.idx.toNat < 4096

/-- A delivery instruction may take effect (R145): its guard permits, its address is clean, in scratch and aligned, and its
release entry of this trick has its kind and count and has not been used. -/
def DeliveryReady (s : State) (k : At) (f : XForm) (kind : Nat) (e : RelEntry) : Prop :=
  Permits s k f.pg ∧ (s.view k).sTag f.sx = false ∧ QueueRoom (s.core k.core) ∧
    (s.releases k.core)[f.idx.toNat]? = some e ∧ e.kind = kind ∧ e.cnt = f.cnt.toNat ∧
    f.idx.toNat ∉ (s.core k.core).used ∧ ((s.view k).sGet f.sx).toNat % 32 = 0 ∧
    ((s.view k).sGet f.sx).toNat + 256 * f.cnt.toNat ≤ 0x300000

/-- The delivery's block i: 256 bytes of scratch, poisoned if one of their words is (R146). -/
def IsBlock (c : Core) (a : Nat) (b : Block) : Prop :=
  (∀ j < 256, b.data.extractLsb' (8 * j) 8 = c.scratch.byte (a + j)) ∧
    (b.poison = true ↔ ∃ j < 256, c.scratchTag (a + j) = true)

/-- What a delivery changes beside its effect: the core's use of its entry, its events, the counters. -/
def DeliveryFrame (s t : State) (k : At) (pieces : List Piece) : Prop :=
  CoresBut [k.core] s t ∧ PiecesBut (.power :: .notes :: pieces) s t ∧ SamePower s t ∧
    RegsBut (coreCounters k.core ++ moduleCounters ++ [Reg.CORE_EVT_STAT k.core, Reg.CORE_STAT k.core]) s t

/-- A core without its memory of scratch. -/
def noScratch (c : Core) : Core := { c with scratch := [], scratchPoison := [] }

/-- Blocks written to scratch from an address, with their tags, and nothing else of scratch. -/
def ScratchHolds (c d : Core) (a n : Nat) (bs : Nat → Block) : Prop :=
  (∀ i < n, ∀ j < 256, d.scratch.byte (a + 256 * i + j) = (bs i).data.extractLsb' (8 * j) 8 ∧
    d.scratchTag (a + 256 * i + j) = (bs i).poison) ∧
  (∀ b, (b < a ∨ a + 256 * n ≤ b) → d.scratch.byte b = c.scratch.byte b ∧ d.scratchTag b = c.scratchTag b)

end Sys2Proof.Claims

/-- R141, R142, R149, R202: VLOAD and the in-bank operations, with operands in range and nothing pending in their way, join
the transfer queue with the word places of their ranges; an IBOP.ACT names a valid table (R216). -/
def Obligations.MemoryCommandQueued : Prop :=
  (∀ (k : At) (f : XForm) (s : State), Issues s (.vload k f) → Permits s k f.pg → QueueWaits (s.core k.core) →
    f.u = false → f.tag = 0 → f.sz = 0 → f.idx = 0 → f.cnt ≠ 0 →
    (s.view k).sTag f.sx = false → (s.view k).sTag f.sy = false → RangeOk s k.core f ((s.view k).sGet f.sy) →
    InScratch ((s.view k).sGet f.sx).toNat 32 → ((s.view k).sGet f.sx).toNat + 32 * f.cnt.toNat ≤ 0x300000 →
    (s.core k.core).writeBusy (((s.view k).sGet f.sx).toNat, 32 * f.cnt.toNat) = false →
    ∃ t, exec (.vload k f) s = .next t ∧
      CoreStep s t k.core []
        (queuedCore s k (.load ((s.view k).sGet f.sx).toNat (wordsOf s k.core f ((s.view k).sGet f.sy))))) ∧
  (∀ (k : At) (f : XForm) (s : State), Permits s k f.pg → QueueWaits (s.core k.core) →
    ∀ row ∈ ibopTable k f, Issues s row.1 → IbopForm f row.2.1 → (s.view k).sTag f.sx = false →
    RangeOk s k.core f ((s.view k).sGet f.sx) →
    (row.2.2.1 = true → (s.view k).sTag f.sy = false ∧ RangeOk s k.core f ((s.view k).sGet f.sy)) →
    (row.2.2.2.1 = true → (s.view k).sTag f.sz = false ∧ RangeOk s k.core f ((s.view k).sGet f.sz)) →
    (∀ i, row.2.2.2.2 = some i → (s.view k).sTag i = false) →
    (row.2.1 = 7 → bit (s.reg (Reg.IB_TAB_VALID k.core)) (fld f.idx 3 0) = true) →
    (let d := wordsOf s k.core f ((s.view k).sGet f.sx)
     let a := if row.2.2.1 then wordsOf s k.core f ((s.view k).sGet f.sy) else []
     let b := if row.2.2.2.1 then wordsOf s k.core f ((s.view k).sGet f.sz) else []
     SameUnits d ((if row.2.2.1 then [a] else []) ++ (if row.2.2.2.1 then [b] else [])) →
     ∃ t v, exec row.1 s = .next t ∧ (∀ i, row.2.2.2.2 = some i → v = (s.view k).sGet i) ∧
       CoreStep s t k.core []
         (queuedCore s k (.ibop row.2.1 (floatFmt (fld f.idx 11 8)) (fld f.idx 3 0) d a b v f.spc))))

/-- R151, R232: KVATT with a readable clean descriptor that passes R151 under a layout that passes R232, its pages mapped,
joins the transfer queue with its descriptor; XQRY and XCHK complete at once, and hold a queue entry for their time: XQRY
returns the page word of R153, XCHK of mapped pages does nothing else. -/
def Obligations.KvAndTranslationCommands : Prop :=
  (∀ (k : At) (f : XForm) (s : State), Issues s (.kvatt k f) → Permits s k f.pg → QueueWaits (s.core k.core) →
    f.spc = false → f.u = false → f.tag = 0 → f.sy = 0 → f.sz = 0 → f.cnt = 0 → f.idx = 0 →
    (s.view k).sTag f.sx = false →
    let a := ((s.view k).sGet f.sx).toNat
    let d := (s.core k.core).scratch.bytes a 64
    let kv := s.kv k.core d
    a % 32 = 0 → a + 64 ≤ 0x300000 → (∀ i < 64, (s.core k.core).scratchTag (a + i) = false) → descBad d = false →
    kv.bad = false → (∀ n ∈ kv.pages, ∃ v, s.xlate k.core (kv.pageAddr n) = .mapped v) →
    (s.core k.core).readBusy (a, 64) = false → (s.core k.core).readBusy (kv.qaddr, 256 * kv.rows) = false →
    (s.core k.core).writeBusy (kv.oaddr, 544 * kv.rows) = false →
    ∃ t, exec (.kvatt k f) s = .next t ∧ CoreStep s t k.core [] (queuedCore s k (.kvatt d))) ∧
  (∀ (k : At) (f : XForm) (s : State) (e : W64), Issues s (.xqry k f) → Permits s k f.pg → QueueRoom (s.core k.core) →
    f.spc = false → f.u = false → f.tag = 0 → f.sx = 0 → f.cnt = 0 → f.idx = 0 → (s.view k).sTag f.sy = false →
    s.pageEntry (s.seqTower k.core) ((s.view k).sGet f.sy) = some e →
    ∃ t v, exec (.xqry k f) s = .next t ∧
      CoreStep s t k.core [] { holding (s.core k.core) none 12 with regs := (s.core k.core).regs.sPut f.sz v false } ∧
      v.getLsbD 63 = e.getLsbD 31 ∧ v.getLsbD 62 = e.getLsbD 30 ∧
      (v.getLsbD 61 = true ↔ e.getLsbD 31 = true ∧ fld e 19 14 = s.lcoreOf k.core % 64) ∧
      (v.getLsbD 61 = true → fld v 45 32 = fld e 13 0) ∧ fld v 31 0 = 0) ∧
  (∀ (k : At) (f : XForm) (s : State), Issues s (.xchk k f) → Permits s k f.pg → QueueRoom (s.core k.core) →
    f.spc = false → f.u = false → f.tag = 0 → f.sx = 0 → f.sz = 0 → f.cnt ≠ 0 → f.idx = 0 → (s.view k).sTag f.sy = false →
    (∀ x ∈ pagesOf ((s.view k).sGet f.sy) (32 * f.cnt.toNat), ∃ v, s.xlate k.core x = .mapped v) →
    ∃ t, exec (.xchk k f) s = .next t ∧ CoreStep s t k.core []
      (holding (s.core k.core) none (10 + 2 * (pagesOf ((s.view k).sGet f.sy) (32 * f.cnt.toNat)).length)))

/-- R144, R171, R172: VSTORE of whole words from scratch, with nothing before it in the transfer queue and FILL_CMP off,
stores each word with its check bytes, its generation tag (none, the rubber's low bits, or s[SZ]) and its poison; every
other word of the vault is as it was. -/
def Obligations.VaultStoreWrites : Prop :=
  ∀ (k : At) (f : XForm) (s : State), Issues s (.vstore k f) → Permits s k f.pg → (s.core k.core).xq = [] → QueueRoom (s.core k.core) →
    f.u = false → f.tag ≠ 3 → (f.tag ≠ 2 → f.sz = 0) → f.idx = 0 → f.cnt ≠ 0 →
    (s.view k).sTag f.sx = false → (s.view k).sTag f.sy = false → (f.tag = 2 → (s.view k).sTag f.sz = false) →
    RangeOk s k.core f ((s.view k).sGet f.sy) → (wordsOf s k.core f ((s.view k).sGet f.sy)).Nodup →
    InScratch ((s.view k).sGet f.sx).toNat 32 → ((s.view k).sGet f.sx).toNat + 32 * f.cnt.toNat ≤ 0x300000 →
    (s.core k.core).readBusy (((s.view k).sGet f.sx).toNat, 32 * f.cnt.toNat) = false →
    (s.core k.core).vault.fillCmp = false →
    let gen := if f.tag = 1 then s.rubber % 16 else if f.tag = 2 then fld ((s.view k).sGet f.sz) 3 0 else 0
    ∃ t, exec (.vstore k f) s = .next t ∧
      (∀ i w, (wordsOf s k.core f ((s.view k).sGet f.sy))[i]? = some w →
        let a := ((s.view k).sGet f.sx).toNat + 32 * i
        t.vget k.core w = encodeWord (BitVec.ofNat 256 (leNat ((s.core k.core).scratch.bytes a 32)))
          (metaByte gen false ((s.core k.core).scratchTag a))) ∧
      (∀ w < 2 ^ 25, w ∉ wordsOf s k.core f ((s.view k).sGet f.sy) → t.vget k.core w = s.vget k.core w) ∧
      (let bare := fun c : Core => { calm c with vault := Vault.reset }
       (bare (t.core k.core)).Like (bare (s.core k.core))) ∧
      CoresBut [k.core] s t ∧ PiecesBut [.power, .heat, .notes] s t ∧ SamePower s t ∧
      RegsBut (coreCounters k.core ++ [Reg.CORE_EVT_STAT k.core, Reg.CORE_STAT k.core]) s t

/-- R145, R146, R148: LSEND hands its blocks, in order, to the link that its release entry names; CPUT hands them to the
engine entry of this trick as blocks of its local operand. The entry is used; no other core, and no other part of the
module than those a block passes through, changes. -/
def Sys2Proof.Claims.DeliverySends : Prop :=
  (∀ (k : At) (f : XForm) (s : State) (e : RelEntry) (l : LinkIx), Issues s (.lsend k f) → DeliveryForm f →
    DeliveryReady s k f 0 e →
    (s.core k.core).readBusy (((s.view k).sGet f.sx).toNat, 256 * f.cnt.toNat) = false →
    e.link = l.val → s.linkOpen l = true →
    ∃ t, ∃ bs : List Block, exec (.lsend k f) s = .next t ∧ bs.length = f.cnt.toNat ∧
      (∀ i b, bs[i]? = some b → IsBlock (s.core k.core) (((s.view k).sGet f.sx).toNat + 256 * i) b) ∧
      t.link l = { s.link l with out := (s.link l).out ++ bs.mapIdx fun i b =>
        ({ type := 1, poison := b.poison, attempt := s.attempt, dtag := e.dtag, blk := i, dest := e.peerSeat, data := b.data },
          true) } ∧
      (∀ m, m ≠ l → t.link m = s.link m) ∧ DeliveryFrame s t k [.links] ∧
      (calm (t.core k.core)).Like (calm { holding (s.core k.core) (some false) (4 * f.cnt.toNat) with
        used := (s.core k.core).used ++ [f.idx.toNat] })) ∧
  (∀ (k : At) (f : XForm) (s : State) (e : RelEntry) (c : CollEntry) (i : CollDesc), Issues s (.cput k f) → DeliveryForm f →
    DeliveryReady s k f 2 e → (s.core k.core).readBusy (((s.view k).sGet f.sx).toNat, 256 * f.cnt.toNat) = false →
    s.collEntry e = some c →
    descAt c.ins 0 (s.lcoreOf k.core) f.cnt.toNat (s.entryRank k.core f.idx.toNat e) = some i →
    (∀ o ∈ c.outs, o.kind ≠ 6) → c.dtag ∉ (s.engine c.eng).abandoned →
    (∀ b < f.cnt.toNat, (s.engine c.eng).operand c.dtag i.operand (i.first + b) = none) →
    ∃ t, exec (.cput k f) s = .next t ∧
      (∀ b < f.cnt.toNat, ∃ x, (t.engine c.eng).operand c.dtag i.operand (i.first + b) = some x ∧
        IsBlock (s.core k.core) (((s.view k).sGet f.sx).toNat + 256 * b) x) ∧
      (∀ g, g ≠ c.eng → t.engine g = s.engine g) ∧ CoresBut [k.core] s t ∧
      PiecesBut [.power, .notes, .links, .engines, .hubQueue] s t ∧ SamePower s t ∧
      RegsBut (coreCounters k.core ++ moduleCounters ++ [Reg.CORE_EVT_STAT k.core, Reg.CORE_STAT k.core,
        Reg.TBL_COLL_FLAGS c.eng] ++ (List.finRange 48).map Reg.LNK_ERR_CNT) s t ∧
      (calm (t.core k.core)).Like (calm { holding (s.core k.core) (some false) (4 * f.cnt.toNat) with
        used := (s.core k.core).used ++ [f.idx.toNat] }))

/-- R145, R147, R148: LRECV copies the blocks that have arrived for its delivery to scratch and frees them; CGET copies the
blocks of its engine entry's result. With every block present nothing else happens but the use of the entry. -/
def Sys2Proof.Claims.DeliveryReceives : Prop :=
  (∀ (k : At) (f : XForm) (s : State) (e : RelEntry) (bs : Nat → Block), Issues s (.lrecv k f) → DeliveryForm f →
    DeliveryReady s k f 1 e → (s.core k.core).writeBusy (((s.view k).sGet f.sx).toNat, 256 * f.cnt.toNat) = false →
    (∀ i < f.cnt.toNat, ((s.seat.rx.find? fun b => b.lcore == s.lcoreOf k.core && b.dtag == e.dtag && b.blk == i).map
      (·.block)) = some (bs i)) →
    ∃ t, exec (.lrecv k f) s = .next t ∧
      ScratchHolds (s.core k.core) (t.core k.core) ((s.view k).sGet f.sx).toNat f.cnt.toNat bs ∧
      (noScratch (t.core k.core)).Like
        (noScratch { holding (s.core k.core) (some true) (4 * f.cnt.toNat) with
          used := (s.core k.core).used ++ [f.idx.toNat] }) ∧
      t.seat = { s.seat with rx := s.seat.rx.filter fun b => !(b.lcore == s.lcoreOf k.core && b.dtag == e.dtag) } ∧
      DeliveryFrame s t k [.seat]) ∧
  (∀ (k : At) (f : XForm) (s : State) (e : RelEntry) (c : CollEntry) (o : CollDesc) (bs : Nat → Block), Issues s (.cget k f) →
    DeliveryForm f → DeliveryReady s k f 3 e →
    (s.core k.core).writeBusy (((s.view k).sGet f.sx).toNat, 256 * f.cnt.toNat) = false → s.collEntry e = some c →
    descAt c.outs 4 (s.lcoreOf k.core) f.cnt.toNat (s.entryRank k.core f.idx.toNat e) = some o →
    (∀ i < f.cnt.toNat, (s.engine c.eng).result c.dtag (o.first + i) = some (bs i)) →
    ∃ t, exec (.cget k f) s = .next t ∧
      ScratchHolds (s.core k.core) (t.core k.core) ((s.view k).sGet f.sx).toNat f.cnt.toNat bs ∧
      (noScratch (t.core k.core)).Like
        (noScratch { holding (s.core k.core) (some true) (4 * f.cnt.toNat) with
          used := (s.core k.core).used ++ [f.idx.toNat] }) ∧
      DeliveryFrame s t k [])

/-! ### Guards, sinks, illegal bundles, the core's events -/

namespace Sys2Proof.Claims

open Sys2Proof.Machine

/-- The slot-3 commands with fields that are legal for each (R101). -/
def slot3Table (k : At) (f : XForm) : List (Instr × Prop) :=
  [(.vload k f, f.u = false ∧ f.tag = 0 ∧ f.sz = 0 ∧ f.idx = 0 ∧ f.cnt ≠ 0),
   (.vstore k f, f.tag ≠ 3 ∧ (f.tag ≠ 2 → f.sz = 0) ∧ f.idx = 0 ∧ f.cnt ≠ 0),
   (.lsend k f, DeliveryForm f), (.lrecv k f, DeliveryForm f), (.cput k f, DeliveryForm f), (.cget k f, DeliveryForm f),
   (.kvatt k f, f.spc = false ∧ f.u = false ∧ f.tag = 0 ∧ f.sy = 0 ∧ f.sz = 0 ∧ f.cnt = 0 ∧ f.idx = 0),
   (.xqry k f, f.spc = false ∧ f.u = false ∧ f.tag = 0 ∧ f.sx = 0 ∧ f.cnt = 0 ∧ f.idx = 0),
   (.xchk k f, f.spc = false ∧ f.u = false ∧ f.tag = 0 ∧ f.sx = 0 ∧ f.sz = 0 ∧ f.cnt ≠ 0 ∧ f.idx = 0)]

/-- The record of a core at the present position of the schedule (R93), while a deal runs or is held. -/
def recordOf (s : State) (p : PCore) (code arg req slot bundle lost : Nat) : Record :=
  { tag := BitVec.ofNat 64 (s.rubber * 2 ^ 24 + s.seat.trick.toNat), tcycle := s.seat.cycle,
    lcore := BitVec.ofNat 8 (s.lcoreOf p), pcore := BitVec.ofNat 9 p.val, req := BitVec.ofNat 2 req,
    slot := BitVec.ofNat 2 slot, code := BitVec.ofNat 8 code, arg := BitVec.ofNat 64 arg, lost := BitVec.ofNat 16 lost,
    bundle := BitVec.ofNat 13 bundle }

/-- A core has raised an event into a buffer that had room: the record stands last, CORE_EVT_STAT counts it, and its
request, if any, is latched in CORE_STAT and on its way to the gateway with the tick of its detection (R92 to R95, R250). -/
def Raised (s t : State) (p : PCore) (r : Record) : Prop :=
  (t.core p).events = (s.core p).events ++ [r] ∧ (t.core p).lostNext = 0 ∧
    fld (t.reg (Reg.CORE_EVT_STAT p)) 4 0 = (s.core p).events.length + 1 ∧
    (r.req ≠ 0 → (t.reg (Reg.CORE_STAT p)).getLsbD (28 + r.req.toNat) = true ∧
      fld (t.reg (Reg.CORE_STAT p)) 47 40 = r.code.toNat ∧
      (t.core p).requests = (s.core p).requests ++ [({ r with lost := 0 }, s.reg Reg.TBL_TIME)])

end Sys2Proof.Claims

/-- R103, R127, R134, R141: under a guard whose bit 0 is 0 a slot-2 or slot-3 command whose queue has room issues and does
nothing. -/
def Sys2Proof.Claims.GuardForbids : Prop :=
  (∀ (k : At) (f : XForm) (s : State), QueueRoom (s.core k.core) → (s.view k).pTag f.pg = false →
    ((s.view k).pGet f.pg).getLsbD 0 = false → ∀ row ∈ slot3Table k f, Issues s row.1 → row.2 →
    ∃ t, exec row.1 s = .next t ∧ CoreStep s t k.core [] (s.core k.core)) ∧
  (∀ (k : At) (f : MForm) (s : State), (s.arr k.core f.ma.toNat).queue.length < 4 → (s.view k).pTag f.pg = false →
    ((s.view k).pGet f.pg).getLsbD 0 = false → ∀ row ∈ queuedTable k f ++ instantTable k f, Issues s row.1 → ArrayForm row.2 f →
    ∃ t, exec row.1 s = .next t ∧ CoreStep s t k.core [] (s.core k.core))

/-- R88, R89, R92, R93, R94: a VSTORE, LSEND, CPUT or XCHK under a poisoned guard is a sink of kind 5: the first of a
rubber raises MEM_POISON_SINK with a replay request, its count 1 and its kind in ARG; nothing else happens, but that each
takes its entry of the transfer queue: VSTORE until its turn, which has come, the others for one cycle (R141). -/
def Sys2Proof.Claims.PoisonedGuardSinks : Prop :=
  ∀ (k : At) (f : XForm) (s : State), (s.view k).pTag f.pg = true → (s.core k.core).xq = [] → QueueRoom (s.core k.core) →
    (s.core k.core).sinks = 0 → (s.core k.core).events.length < 16 → s.tblState = TS_RUNNING →
    ∀ row ∈ slot3Table k f, Issues s row.1 → row.2 → row.1 ∈ ([.vstore k f, .lsend k f, .cput k f, .xchk k f] : List Instr) →
    ∃ t, exec row.1 s = .next t ∧ CoreStepEv s t k.core [] (if row.1 = .vstore k f then s.core k.core
      else holding (s.core k.core) (if row.1 = .xchk k f then none else some false) 1) ∧ (t.core k.core).sinks = 1 ∧
      Raised s t k.core (recordOf s k.core 0x14 (256 + 5) 1 3 (bundleIx s k) (s.core k.core).lostNext)

/-- R72, R92: a core that fetches an illegal bundle raises CORE_ILLEGAL with the lowest reason in ARG and the slot it
applies to, requests a stop, becomes FAULTED and issues nothing more; a legal bundle is left to its instructions. -/
def Sys2Proof.Claims.IllegalBundle : Prop :=
  (∀ (p : PCore) (s : State) (r slot : Nat), s.canIssue { core := p, lead := true } = true → (s.core p).next ≤ 8191 →
    (s.core p).events.length < 16 →
    s.tblState = TS_RUNNING → bundleReason ((s.core p).bundleWords (s.core p).next) = some (r, slot) →
    ∃ t, exec (.coreIllegal p) s = .next t ∧
      Raised s t p (recordOf s p 0x38 r 3 slot (s.core p).next (s.core p).lostNext) ∧
      t.coreState p = CS_FAULTED ∧ t.canIssue { core := p, lead := true } = false ∧
      CoreStepEv s t p [] (s.core p)) ∧
  (∀ (p : PCore) (s : State), s.canIssue { core := p, lead := true } = true → (s.core p).next ≤ 8191 →
    bundleReason ((s.core p).bundleWords (s.core p).next) = none →
    s.actBad p (((s.core p).bundleWords (s.core p).next).getD 3 0) = false → exec (.coreIllegal p) s = .next s)

/-- R247, R85, R114: a waiting bundle whose deadline has passed, or whose TBAR trick has, is revoked once: SCHED_REVOKE with
a replay request, its kind and the cycle it was due in ARG. -/
def Sys2Proof.Claims.DeadlineRevokes : Prop :=
  ∀ (p : PCore) (s : State) (w : Waiting) (kind due : Nat), (s.core p).waiting = some w → w.revoked = false →
    (s.core p).events.length < 16 → s.tblState = TS_RUNNING →
    ((∃ d, w.tbar = none ∧ w.deadline = some d ∧ kind = 1 ∧ due = d.toNat ∧
        (w.trick.toNat < s.seat.trick.toNat ∨ w.trick = s.seat.trick ∧ d.toNat < s.seat.cycle.toNat)) ∨
      (∃ m, w.tbar = some m ∧ w.deadline = none ∧ w.earliest = none ∧ kind = 2 ∧ due = 0 ∧
        (m.toNat < s.seat.trick.toNat ∨ m = s.seat.trick ∧ 0 < s.seat.cycle.toNat))) →
    ∃ t, exec (.revokeDeadline p) s = .next t ∧
      Raised s t p (recordOf s p 0x30 (kind * 2 ^ 56 + due) 1 0 w.bundle.toNat (s.core p).lostNext) ∧
      (t.core p).waiting = some { w with revoked := true } ∧ exec (.revokeDeadline p) t = .next t ∧
      CoreStepEv s t p [] (s.core p)

/-! ### Vaults and in-bank units -/

namespace Sys2Proof.Claims

open Sys2Proof.Machine

/-- A word as a read delivers it (R173, R174): its data as decoded, and poisoned where it is uncorrectable or marked. -/
def readBack (x : Stored) : BitVec 256 × Bool :=
  let d := decodeWord x
  (d.2.data, (match d.1 with | .uncorrectable => true | _ => false) || d.2.poison)

/-- The words of a transfer's next block: the next word, and the one after it where it is the other of the block. -/
def blockWords (ws : List Nat) (done : Nat) : List Nat :=
  match ws.drop done with
  | w :: v :: _ => if v / 2 = w / 2 then [w, v] else [w]
  | l => l

/-- A block of a load has been delivered: its words, decoded, stand in scratch with their poison; the load has advanced or,
at its end, left the queue; registers, every other byte of scratch and every stored word are as they were. -/
def BlockDelivered (s t : State) (p : PCore) (x : Xfer) (dst : Nat) (ws : List Nat) : Prop :=
  let bs := blockWords ws x.done
  (∀ i w, bs[i]? = some w → ∀ j < 32,
    (t.core p).scratch.byte (dst + 32 * (x.done + i) + j) = (readBack (s.vget p w)).1.extractLsb' (8 * j) 8 ∧
    (t.core p).scratchTag (dst + 32 * (x.done + i) + j) = (readBack (s.vget p w)).2) ∧
  (∀ a, (a < dst + 32 * x.done ∨ dst + 32 * (x.done + bs.length) ≤ a) →
    (t.core p).scratch.byte a = (s.core p).scratch.byte a ∧ (t.core p).scratchTag a = (s.core p).scratchTag a) ∧
  (∀ w, t.vget p w = s.vget p w) ∧ (t.core p).regs = (s.core p).regs ∧ (t.core p).arrays = (s.core p).arrays ∧
  (∀ a, (t.core p).hand.byte a = (s.core p).hand.byte a) ∧
  (x.done + bs.length < ws.length → ∃ f, (t.core p).xq = [{ x with done := x.done + bs.length, fails := f }]) ∧
  (ws.length ≤ x.done + bs.length → (t.core p).xq = [])

/-- Only vault words in a list differ, and no register, scratch byte or hand byte of the core. -/
def OnlyWords (s t : State) (p : PCore) (ws : List Nat) : Prop :=
  (∀ w < 2 ^ 25, w ∉ ws → t.vget p w = s.vget p w) ∧ (t.core p).regs = (s.core p).regs ∧
    (∀ a, (t.core p).scratch.byte a = (s.core p).scratch.byte a ∧ (t.core p).scratchTag a = (s.core p).scratchTag a ∧
      (t.core p).hand.byte a = (s.core p).hand.byte a) ∧ CoresBut [p] s t

/-- The masks of a register's bits that a host write changes as written (R5, access RW). -/
def writtenBits (old new : W64) (ranges : List (Nat × Nat)) (i : Nat) : Bool :=
  if ranges.any (fun r => decide (r.2 ≤ i ∧ i ≤ r.1)) then new.getLsbD i else old.getLsbD i

end Sys2Proof.Claims

/-- R173, R174, R176, R177: a block of the load that alone is queued arrives with a good CRC: its words are decoded and
delivered, and nothing is written back. A block that fails its CRC, but for the fourth time, is not delivered: the load goes
back to the first word of its burst, which waits for its re-send, and a re-send that succeeds delivers it and is counted. -/
def Sys2Proof.Claims.VaultReads : Prop :=
  ∀ (p : PCore) (s : State) (x : Xfer) (dst : Nat) (ws : List Nat), (s.core p).xq = [x] → x.op = .load dst ws →
    x.done < ws.length → dst % 32 = 0 →
    ((s.core p).vault.awaiting = false →
      ∃ t, exec (.vaultReadBlock p []) s = .next t ∧ BlockDelivered s t p x dst ws ∧ CoresBut [p] s t) ∧
    ((s.core p).vault.awaiting = false → x.fails < 3 → ∀ fl : List (Fin 608),
      (s.blockFor p (ws.getD x.done 0) (fl.map (·.val))).2 = false →
      ∃ t, exec (.vaultReadBlock p fl) s = .next t ∧ (t.core p).vault.awaiting = true ∧
        (∃ d ≤ x.done, (∀ i, d ≤ i → i ≤ x.done → ws.getD i 0 / 8 = ws.getD x.done 0 / 8) ∧
          (∀ i, i + 1 = d → ws.getD i 0 / 8 ≠ ws.getD x.done 0 / 8) ∧
          (t.core p).xq = [{ x with done := d, fails := x.fails + 1 }]) ∧ (t.core p).regs = (s.core p).regs ∧
        (∀ a, (t.core p).scratch.byte a = (s.core p).scratch.byte a) ∧ (∀ w, t.vget p w = s.vget p w)) ∧
    ((s.core p).vault.awaiting = true →
      ∃ t, exec (.channelResend p []) s = .next t ∧ BlockDelivered s t p x dst ws ∧
        (t.core p).vault.awaiting = false ∧ t.rd (Reg.VLT_ERR_CNT p) 63 48 = min 65535 (s.rd (Reg.VLT_ERR_CNT p) 63 48 + 1))

/-- R176, R177: a return-bus cycle of odd parity that reports a failed write block undoes its burst, which will be sent
again; one that reports nothing does nothing. -/
def Sys2Proof.Claims.ReturnStatusUndoes : Prop :=
  ∀ (p : PCore) (s : State) (status : BitVec 16) (n : Nat) (fl : List (Fin 608)),
    ((List.range 16).countP fun i => status.getLsbD i) % 2 = 1 →
    (status.getLsbD 0 = false → status.getLsbD 1 = false → exec (.returnStatus p status n fl) s = .next s) ∧
    (∀ b : WriteBurst, status.getLsbD 0 = true → status.getLsbD 1 = false → (s.core p).vault.bursts[n]? = some b → b.fails < 3 →
      b.words.Nodup → (∀ w ∈ b.words, w < 2 ^ 25) → b.old.length = b.words.length →
      ∃ t, exec (.returnStatus p status n fl) s = .next t ∧ OnlyWords s t p b.words ∧
        (∀ (i : Nat) w, b.words[i]? = some w → b.old[i]? = some (t.vget p w)) ∧
        (t.core p).vault.bursts[n]? = some { b with fails := b.fails + 1, pending := true, flips := fl.map (·.val) })

/-- R185, R187 to R189: a slot that is the refresher's refreshes and hands the next one over unless every slot refreshes. In
a window marked idle, with background scrubbing and no copy waiting, the walker's segment is read: clean words stay,
corrected ones are rewritten, uncorrectable ones are stored poisoned; the walker advances. -/
def Obligations.RefreshAndScrub : Prop :=
  (∀ (p : PCore) (s : State), (s.core p).vault.selfRefresh = false → (s.core p).vault.handed = false →
    ∃ t, exec (.refreshSlot p) s = .next t ∧ (t.core p).vault.refreshPtr = (s.core p).vault.refreshPtr + 1 ∧
      (t.core p).vault.handed = !bit (t.reg (Reg.VLT_SCRUB_STAT p)) 23 ∧ OnlyWords s t p []) ∧
  (∀ (p : PCore) (s : State), (s.core p).vault.selfRefresh = false → s.rd (Reg.VLT_CFG p) 1 0 = 1 →
    s.marked p 2 = true → (s.core p).vault.noise = [] → (∀ e < 8, (s.reg (Reg.VLT_REMAP p e)).getLsbD 62 = false) → s.rd (Reg.VLT_SCRUB_STAT p) 18 0 < 524287 →
    ∃ t, exec (.scrubSlot p true) s = .next t ∧
      t.rd (Reg.VLT_SCRUB_STAT p) 18 0 = s.rd (Reg.VLT_SCRUB_STAT p) 18 0 + 1 ∧
      OnlyWords s t p (segmentWords (s.rd (Reg.VLT_SCRUB_STAT p) 18 0)) ∧
      ∀ w ∈ segmentWords (s.rd (Reg.VLT_SCRUB_STAT p) 18 0), t.vget p w =
        match (decodeWord (s.vget p w)).1 with
        | .clean => s.vget p w
        | .corrected _ => (decodeWord (s.vget p w)).2
        | .uncorrectable => encodeWord (s.vget p w).data ((s.vget p w).md ||| 1))

/-- R193, R319, R448: the other ways into a vault. In test mode RAW_WRITE stores the 288 bits of the registers exactly and
RAW_READ brings a stored word into them with the decoder's finding; in a window that the deal marks for the host a waiting read is answered with the
decoded word and its poison, and a waiting write of a word stores it with its check bytes. -/
def Obligations.TestModeAndHostWindow : Prop :=
  (∀ (p : PCore) (s : State) (w : BitVec 25), s.coreState p ∈ [CS_STOPPED, CS_FAULTED, CS_SPARE, CS_RETIRED] →
    s.startAccepted = false →
    (∃ t, exec (.rawWrite p true w) s = .next t ∧ OnlyWords s t p [w.toNat] ∧
      (∀ j < 4, (t.vget p w.toNat).bits.extractLsb' (64 * j) 64 = s.reg (Reg.VLT_TEST_DATA p j)) ∧
      (t.vget p w.toNat).bits.extractLsb' 256 32 = (s.reg (Reg.VLT_TEST_META p)).extractLsb' 0 32) ∧
    (∃ t, exec (.rawRead p true w) s = .next t ∧ OnlyWords s t p [] ∧
      (∀ j < 4, t.reg (Reg.VLT_TEST_DATA p j) = (s.vget p w.toNat).bits.extractLsb' (64 * j) 64) ∧
      (t.reg (Reg.VLT_TEST_META p)).extractLsb' 0 32 = (s.vget p w.toNat).bits.extractLsb' 256 32 ∧
      t.rd (Reg.VLT_TEST_CTL p) 15 14 = (match (decodeWord (s.vget p w.toNat)).1 with
        | .clean => 0 | .corrected _ => 1 | .uncorrectable => 2))) ∧
  (∀ (p : PCore) (s : State) (off : Nat), s.marked p 1 = true → (s.core p).vault.noise = [] → off < 2 ^ 30 → off % 32 = 0 →
    (s.host.accesses = [(s.lcoreOf p, .read off 32)] →
      ∃ t, exec (.hostWindow p) s = .next t ∧ t.host.accesses = [] ∧ OnlyWords s t p [] ∧
        t.sent = .readData off (leBytes 32 (readBack (s.vget p (off / 32))).1.toNat) [(readBack (s.vget p (off / 32))).2]
          :: s.sent) ∧
    (∀ (d : List Byte) (x : Bool), d.length = 32 → s.host.accesses = [(s.lcoreOf p, .write off d x)] →
      ∃ t, exec (.hostWindow p) s = .next t ∧ t.host.accesses = [] ∧ OnlyWords s t p [off / 32] ∧
        t.vget p (off / 32) = encodeWord (BitVec.ofNat 256 (leNat d)) (metaByte 0 false x)))

/-- R203, R205, R210, R211: IBRUN goes on with the run that follows the context due in the in-bank operation at the head of the
queue: of the blocks that are left of it the next n + 1, and in them, for each word of its range, the word computed from the
decoded operands is written, with IBW set, the destination's generation and the operands' poison; no other word changes. -/
def Obligations.InBankRunWrites : Prop :=
  ∀ (p : PCore) (s : State) (x : Xfer) (op : Nat) (f : Fmt) (tab : Nat) (dst a b : List Nat) (v : W64) (seq : Bool)
    (n : BitVec 6) (cut : Bool) (y : IbCommand),
    (s.core p).xq = [x] → x.op = .ibop op f tab dst a b v seq → (s.core p).vault.awaiting = false →
    let cs := ibCommands op f tab dst a b v seq
    let at_ := x.done + contextCount (cs.drop x.done)
    cs[at_]? = some y → dst.Nodup → (∀ w ∈ dst, w < 2 ^ 25) → op < 8 →
    (ibReadsA op = true → a.length = dst.length) → (ibReadsB op = true → b.length = dst.length) →
    (∀ i j : Nat, ∀ w u, dst[i]? = some w → ((ibReadsA op = true ∧ a[j]? = some u) ∨ (ibReadsB op = true ∧ b[j]? = some u)) →
      i ≠ j → u ≠ w) →
    (∀ i j : Nat, i < dst.length → j < dst.length → dst.getD i 0 / 8 = dst.getD j 0 / 8 →
      (ibReadsA op = true → a.getD i 0 / 8 = a.getD j 0 / 8) ∧ (ibReadsB op = true → b.getD i 0 / 8 = b.getD j 0 / 8)) →
    let blocks := ibBlocks dst y.items
    let is := ((blocks.drop x.part).take (n.toNat + 1)).flatten
    ∃ t, exec (.ibrun ⟨p, n, cut⟩) s = .next t ∧ OnlyWords s t p (is.map fun i => dst.getD i 0) ∧
      (∀ i ∈ is,
        let xa := readBack (s.vget p (a.getD i 0))
        let xb := readBack (s.vget p (b.getD i 0))
        let d := decodeWord (s.vget p (dst.getD i 0))
        let za : BitVec 256 := if ibReadsA op then xa.1 else 0
        let zb : BitVec 256 := if ibReadsB op then xb.1 else 0
        t.vget p (dst.getD i 0) = encodeWord (ibWord op f (s.tableByte p tab) v za zb)
          (metaByte (match d.1 with | .uncorrectable => 0 | _ => d.2.gen) true
            ((ibReadsA op && xa.2) || (ibReadsB op && xb.2)))) ∧
      (x.part + n.toNat + 1 < blocks.length → (t.core p).xq =
        [{ x with done := at_, part := x.part + n.toNat + 1, going := !cut, fails := 0 }]) ∧
      (blocks.length ≤ x.part + n.toNat + 1 → (t.core p).xq =
        if cs.length ≤ at_ + 1 then [] else [{ x with done := at_ + 1, part := 0, going := false, fails := 0 }])

/-- R212 to R215: the return bus serves the slice after the one it served last that has something to send: its count of lost
reports first, else its oldest report, which is handled; a report of a correction is counted. A report that times out is
dropped and counted as lost. -/
def Obligations.InBankReports : Prop :=
  (∀ (p : PCore) (s : State) (k : Fin 8), (s.core p).ib.nextSlice = some k →
    let q := (s.core p).ib.slices[k.val]
    (q.lost ≠ 0 → ∃ t, exec (.ibReport p true) s = .next t ∧ OnlyWords s t p [] ∧ (t.core p).ib.last = k ∧
      (t.core p).ib.slices[k.val] = { q with lost := 0 } ∧
      t.rd (Reg.IB_ERR_CNT p) 63 48 = min 65535 (s.rd (Reg.IB_ERR_CNT p) 63 48 + q.lost)) ∧
    (∀ r rest, q.lost = 0 → q.queue = r :: rest → ∃ t, exec (.ibReport p true) s = .next t ∧ OnlyWords s t p [] ∧
      (t.core p).ib.last = k ∧ (t.core p).ib.slices[k.val] = { q with queue := rest } ∧
      (r.kind = 0 → t.rd (Reg.IB_ERR_CNT p) 15 0 = min 65535 (s.rd (Reg.IB_ERR_CNT p) 15 0 + 1)) ∧
      (r.kind = 1 → t.rd (Reg.IB_ERR_CNT p) 31 16 = min 65535 (s.rd (Reg.IB_ERR_CNT p) 31 16 + 1)) ∧
      (r.kind = 2 → t.rd (Reg.IB_ERR_CNT p) 47 32 = min 65535 (s.rd (Reg.IB_ERR_CNT p) 47 32 + 1)))) ∧
  (∀ (p : PCore) (s : State) (k : Fin 8) (r : IbReport) (rest : List IbReport),
    (s.core p).ib.slices[k.val].queue = r :: rest →
    ∃ t, exec (.ibReportTimeout p k) s = .next t ∧ OnlyWords s t p [] ∧ RegsBut [] s t ∧
      (t.core p).ib.slices[k.val] = { queue := rest, lost := min 63 ((s.core p).ib.slices[k.val].lost + 1) })

/-- R216, R220, R196, R195: host writes of activation tables, of the KV layout and of the sequence tables store the bits that
are RW, in the states in which they may; nothing else changes. -/
def Obligations.TableWrites : Prop :=
  (∀ (p : PCore) (k : Fin 16) (w : Fin 256) (v : W64) (s : State), w.val < 132 →
    s.coreState p ∈ [CS_STOPPED, CS_FAULTED, CS_SPARE, CS_RETIRED] → s.rd (Reg.CORE_PWR p) 5 4 = 0 →
    ∃ t, exec (.ibTabWrite p k w v) s = .next t ∧ t.reg (Reg.IB_TAB p k.val w.val) = v ∧
      RegsBut [Reg.IB_TAB p k.val w.val] s t ∧ CoresBut [] s t ∧ PiecesBut [] s t) ∧
  (∀ (p : PCore) (tok : Bool) (v : W64) (s : State), s.coreState p ≠ CS_RUNNING → s.coreState p ≠ CS_HELD →
    let a := if tok then Reg.IB_KV_TOK p else Reg.IB_KV_CFG p
    ∃ t, exec (.kvLayoutWrite p tok v) s = .next t ∧
      (∀ i < 64, (t.reg a).getLsbD i = writtenBits (s.reg a) v (if tok then [(31, 0)] else [(63, 16), (0, 0)]) i) ∧
      RegsBut [a] s t ∧ CoresBut [] s t ∧ PiecesBut [] s t) ∧
  (∀ (dir : Bool) (w : Tower) (i : BitVec 16) (v : W64) (s : State), (dir = true → i.toNat < 4096) →
    let a := if dir then Reg.TBL_SEQ_DIR w i.toNat else Reg.TBL_SEQ_PAGE w i.toNat
    let m := if dir then [(63, 63), (47, 32), (15, 0)] else [(31, 30), (19, 0)]
    (s.dealRuns = false → ∃ t, exec (.seqEntryWrite dir w i v) s = .next t ∧
      (∀ j < 64, (t.reg a).getLsbD j = writtenBits (s.seqRead a) v m j) ∧ RegsBut [a] s t ∧ CoresBut [] s t ∧
      PiecesBut [] s t) ∧
    (s.dealRuns = true → ∃ t, exec (.seqEntryWrite dir w i v) s = .next t ∧
      (∀ j < 64, (t.seqRead a).getLsbD j = writtenBits (s.seqRead a) v m j) ∧ RegsBut [] s t ∧ CoresBut [] s t ∧
      PiecesBut [.seat] s t))

/-- R217, R227, R229, R233, R234, R236: a KV-attend's pass. KVSET brings the context and the query rows to the units and forms
the runs of the pass; KVRUN does the next blocks of the first run that is left. CHAIN from a unit whose runs have ended: at
the lowest position it loads the next row, elsewhere it merges what arrived with the unit's state; from position 63 the row
goes to scratch. No stored word changes. -/
def Obligations.KvAttendProceeds : Prop :=
  ∀ (p : PCore) (s : State) (x : Xfer) (d : List Byte), (s.core p).xq = [x] → x.op = .kvatt d →
    (s.core p).vault.awaiting = false →
    let kv := s.kv p d
    ((s.core p).ib.kv = none → s.kvRuns p kv ≠ [] →
      ∃ t k, exec (.kvset p) s = .next t ∧ OnlyWords s t p [] ∧ (t.core p).ib.kv = some k ∧ k.pass = 0 ∧ k.set = true ∧
        k.runs = s.kvRuns p kv ∧ k.states = [] ∧ k.records = [] ∧ k.row = 0 ∧ k.context = kv.context 0 ∧
        (∀ r, r < min 8 kv.rows → (∀ j < 256, (k.query r).1.extractLsb' (8 * j) 8 =
          (s.core p).scratch.byte (kv.qaddr + 256 * r + j)) ∧ (k.query r).2 = (s.core p).scratchTainted (kv.qaddr + 256 * r) 256) ∧
        (∀ r ∈ k.runs, k.qlo ≤ r.q) ∧ (∃ r ∈ k.runs, r.q = k.qlo)) ∧
    (∀ k r rest (n : BitVec 6) (cut : Bool), (s.core p).ib.kv = some k → k.set = true → k.runs = r :: rest →
      ∃ t k', exec (.kvrun ⟨p, n, cut⟩) s = .next t ∧ OnlyWords s t p [] ∧ (t.core p).ib.kv = some k' ∧
        k' = { k with runs := (match r.blocks.drop (n.toNat + 1) with | [] => rest | bs => { r with blocks := bs } :: rest),
                      states := k'.states, nan := k'.nan } ∧ ∀ q i, q ≠ r.q → k'.held q i = k.held q i) ∧
    (∀ (k : KvPass) (q : Fin 64), (s.core p).ib.kv = some k → k.set = true → (∀ r ∈ k.runs, r.q ≠ q.val) →
      (∀ y ∈ k.records, y.1 ≠ q.val + 1) →
      (q.val = k.qlo → q.val < 63 → k.row < 8 * k.pass + (kv.passRows k.pass).length →
        ∃ t, exec (.chain ⟨p, q⟩) s = .next t ∧ OnlyWords s t p [] ∧ (t.core p).ib.kv = some { k with
          row := k.row + 1, records := k.records ++ [(q.val + 1, k.row, (k.held q.val k.row).getD KvRow.zero)] }) ∧
      (∀ i y, q.val ≠ k.qlo → k.records.find? (fun z => z.1 == q.val) = some (q.val, i, y) →
        let z := match k.held q.val i with | some h => y.merge h | none => y
        (q.val < 63 → ∃ t, exec (.chain ⟨p, q⟩) s = .next t ∧ OnlyWords s t p [] ∧ (t.core p).ib.kv = some { k with
          records := k.records.filter (fun u => u.1 != q.val) ++ [(q.val + 1, i, z)] }) ∧
        (q.val = 63 → ∃ t, exec (.chain ⟨p, q⟩) s = .next t ∧ (∀ w, t.vget p w = s.vget p w) ∧
          (t.core p).regs = (s.core p).regs ∧ CoresBut [p] s t ∧
          (∀ j < 544, (t.core p).scratch.byte (kv.oaddr + 544 * i + j) = (z.normalise kv.norm).bytes.getD j 0) ∧
          ∀ j, (j < kv.oaddr + 544 * i ∨ kv.oaddr + 544 * i + 544 ≤ j) →
            (t.core p).scratch.byte j = (s.core p).scratch.byte j)))

/-! ### The schedule: boundaries, commands, ticks, notices -/

namespace Sys2Proof.Claims

open Sys2Proof.Machine

/-- Every control register outside a list, every core and every part outside a list is as it was; what the present cycle has
counted and set may be noted (R6, R199). -/
def Changes (s t : State) (w : List Nat) (ps : List Piece) : Prop :=
  RegsBut w s t ∧ CoresBut [] s t ∧ PiecesBut (.notes :: ps) s t

/-- Every bit of a register outside a list of fields is as it was. -/
def FieldsBut (s t : State) (a : Nat) (fs : List (Nat × Nat)) : Prop :=
  ∀ i < 64, (∀ f ∈ fs, ¬(f.2 ≤ i ∧ i ≤ f.1)) → (t.reg a).getLsbD i = (s.reg a).getLsbD i

/-- A seat-level record of an event (R300) has joined those on their way to the log, and no other has. -/
def Logs (s t : State) (code arg req : Nat) : Prop :=
  ∃ r : Record, t.hubQueue = s.hubQueue ++ [r] ∧ r.code = BitVec.ofNat 8 code ∧ r.arg = BitVec.ofNat 64 arg ∧
    r.req = BitVec.ofNat 2 req ∧ r.lcore = 0xFF ∧ r.pcore = 0x1FF

/-- A completion record of a command with a status, behind the lines of its reply, waits in the hub or has been written to
the completion ring (R324, R416). -/
def Responded (t : State) (c : CmdRef) (status detail retry : Nat) (lines : List (Nat × List Byte)) : Prop :=
  ∃ x : Completion, x.cmd = c ∧ x.status = status ∧ x.detail = detail ∧ x.retry = retry ∧ x.lines = lines ∧
    (x ∈ t.host.held ∨ (∀ l ∈ lines, Sent.hostLine l.1 l.2 ∈ t.sent) ∧ ∃ a, Sent.hostLine a x.bytes ∈ t.sent)

/-- A command of the host has completed (R324): it is open no more, and its record is formed. -/
def Answered (t : State) (c : CmdRef) (status detail retry : Nat) : Prop :=
  c ∉ t.host.opened ∧ Responded t c status detail retry []

/-- A reply to a MGMT request (R416): class and operation, its body, RSTATUS, in full lines of host memory; its command
completes OK. -/
def Replied (t : State) (r : MgmtReq) (cls op rstatus : Nat) (body : List Byte) : Prop :=
  r.cmd ∉ t.host.opened ∧ Responded t r.cmd 0 0 0 (hostLines r.reply.toNat (leBytes 1 cls ++ leBytes 1 op ++ leBytes 2 0 ++
    leBytes 4 body.length ++ leBytes 1 rstatus ++ List.replicate 7 0 ++ body))

/-- The identifier of a command is free (R322 check 3). -/
def IdFree (s : State) (id : BitVec 16) : Prop := ∀ y ∈ s.host.opened, y.id ≠ id

/-- A named tick is a multiple of 5 at least 240 ticks ahead (R271). -/
def TickAhead (s : State) (t : W64) : Prop := 5 ∣ t.toNat ∧ s.now + 240 ≤ t.toNat

/-- A core of the seat runs from the start of a rubber: RUNNING, from a start index, REND to come. -/
def Begins (t : State) (p : PCore) (start : Nat) : Prop :=
  t.coreState p = CS_RUNNING ∧ (t.core p).next = start ∧ (t.core p).start.toNat = start ∧ (t.core p).ended = false ∧
    (t.core p).waiting = none ∧ (t.core p).used = []

/-- Writes to the sequence tables that wait name entries of those tables (R196), and a seat that has notices holds at the
strength of one of their kinds (R251): what every step keeps. -/
def SeatSound (s : State) : Prop :=
  (∀ w ∈ s.seat.seqHeld, 0x100000 ≤ w.addr ∧ w.addr < 0x1000000) ∧ (∀ h, s.seat.hold = some h → h ≤ 2)

/-- The seat stands at the start of a rubber. -/
def AtStart (t : State) (rubber attempt : Nat) : Prop :=
  t.tblState = TS_RUNNING ∧ t.rubber = rubber ∧ t.attempt = attempt ∧ t.seat.trick = 0 ∧ t.seat.cycle = 0 ∧ t.seat.hold = none

/-- A core that is ON. -/
def IsOn (s : State) (p : PCore) : Prop := s.rd (Reg.CORE_PWR p) 5 4 = 0

/-- Every link that carries notices, but one, has a notice to send twice (R249, R283); other links are as they were. -/
def Flooded (s t : State) (n : Notice) (but : Option LinkIx) : Prop :=
  ∀ l, (s.linkOpen l = true ∧ but ≠ some l → t.link l = { s.link l with notices := (s.link l).notices ++ [(n, 2)] }) ∧
    (¬(s.linkOpen l = true ∧ but ≠ some l) → t.link l = s.link l)

/-- What a good frame does before its content is looked at (R281, R282): its ACKSEQ frees the frames before it, and a NAK
that names a new number asks for them again. -/
def Acked (x y : Link) (h : FrameHead) : Prop :=
  y.bad = 0 ∧
  (x.replay = [] → y.replay = []) ∧
  (∀ f rest, x.replay = f :: rest → y.replay =
    if (h.ackseq - f.seq).toNat ≤ x.replay.length then x.replay.drop (h.ackseq - f.seq).toNat else x.replay) ∧
  (h.nak = true → x.lastNak ≠ some h.ackseq → y.cursor = 0 ∧ y.lastNak = some h.ackseq) ∧
  (h.nak = false → y.lastNak = x.lastNak)

/-- A notice that came in a frame on link l has been passed on: every other link that carries notices has it to send twice;
the frame's ACKSEQ and NAK are taken (R249, R282, R283). -/
def PassedOn (s t : State) (n : Notice) (l : LinkIx) (h : FrameHead) : Prop :=
  (∀ k, k ≠ l → (s.linkOpen k = true → t.link k = { s.link k with notices := (s.link k).notices ++ [(n, 2)] }) ∧
    (s.linkOpen k = false → t.link k = s.link k)) ∧
  Acked (s.link l) (t.link l) h ∧ (t.link l).notices = (s.link l).notices

/-- The last notice is shown (R272). -/
def Shown (t : State) (n : Notice) : Prop :=
  fld (t.reg Reg.TBL_NOTICE) 7 0 = n.kind.toNat ∧ fld (t.reg Reg.TBL_NOTICE) 15 8 = n.attempt.toNat ∧
    fld (t.reg Reg.TBL_NOTICE) 31 16 = n.seat.toNat ∧ fld (t.reg Reg.TBL_NOTICE) 39 32 = n.lcore.toNat ∧
    fld (t.reg Reg.TBL_NOTICE) 63 40 = n.trick.toNat ∧ fld (t.reg Reg.TBL_NOTICE_HI) 39 0 = n.rubber.toNat ∧
    fld (t.reg Reg.TBL_NOTICE_HI) 47 40 = n.code.toNat ∧ fld (t.reg Reg.TBL_NOTICE_HI) 60 48 = n.bundle.toNat ∧
    (t.reg Reg.TBL_NOTICE_HI).getLsbD 63 = n.seatLvl ∧ t.reg Reg.TBL_NOTICE_TICK = n.actTick

/-- How strongly a notice holds: a replay least, a stop most (R251). -/
def holdRank (kind : Nat) : Nat := if kind = 2 then 2 else if kind = 0 then 0 else 1

/-- A running seat has taken a notice: it will hold at the end of its trick, with the strongest kind. -/
def Taken (s t : State) (n : Notice) : Prop :=
  n ∈ t.seat.seen ∧ Shown t n ∧ t.tblState = TS_RUNNING ∧
    t.seat.hold = some (match s.seat.hold with | some h => max h (holdRank n.kind.toNat) | none => holdRank n.kind.toNat)

/-- A command of the host with the state of its opening: it is open. -/
def openedWith (s : State) (c : CmdRef) : State := { s with host := { s.host with opened := s.host.opened ++ [c] } }

end Sys2Proof.Claims

/-- R115, R251, R309, R241, R78, R90, R254, R94: the ends of a trick and of a rubber, and a record that leaves. With no
notice the next trick begins at cycle 0 and a bundle that became ready in the trick that ends revokes; with one the seat
holds, its cores HELD and their queues abandoned, or stops. After the last trick the next rubber begins: each core that is
ON runs from CORE_START, with a snapshot of its scalar and predicate registers. -/
def Obligations.ScheduleBoundaries : Prop :=
  (∀ s : State, s.running = true → s.seat.trick.toNat + 1 < s.tricks.length → s.seat.hold = none →
    ∃ t, exec .trickBoundary s = .next t ∧ t.tblState = TS_RUNNING ∧ t.seat.trick = s.seat.trick + 1 ∧ t.seat.cycle = 0 ∧
      PiecesBut [.seat, .engines, .hubQueue, .notes] s t ∧
      ∀ p, (t.core p).regs = (s.core p).regs ∧ (t.core p).arrays = (s.core p).arrays ∧ (t.core p).xq = (s.core p).xq ∧
        ∀ w, p ∈ s.serving → s.coreState p = CS_RUNNING → (s.core p).waiting = some w → w.tbar = none → w.rend = false →
          w.trick = s.seat.trick → (t.core p).waiting = some w ∧ ((s.core p).events.length < 16 →
            ∃ r ∈ (t.core p).events, r.code = 0x30 ∧ r.req = 1 ∧ fld r.arg 63 56 = 3 ∧ r.bundle = w.bundle)) ∧
  (∀ (s : State) (h : Nat) (cmd : Instr), s.running = true → s.seat.hold = some h → s.host.accesses = [] → SeatSound s →
    ((cmd = .trickBoundary ∧ s.seat.trick.toNat + 1 < s.tricks.length) ∨
      (cmd = .rubberBoundary ∧ s.seat.trick.toNat + 1 = s.tricks.length)) →
    ∃ t, exec cmd s = .next t ∧ t.seat.trick = s.seat.trick + 1 ∧ t.seat.cycle = 0 ∧
      t.tblState = (if h = 2 then TS_STOPPED else TS_HELD) ∧
      ∀ p ∈ s.serving, (s.coreState p = CS_RUNNING → t.coreState p = if h = 2 then CS_STOPPED else CS_HELD) ∧
        (t.core p).xq = [] ∧ (t.core p).waiting = none ∧ (∀ x ∈ (t.core p).arrays.toList, x.queue = [] ∧ x.drain = none) ∧
        (t.core p).regs = (s.core p).regs ∧ ∀ a, (t.core p).scratch.byte a = (s.core p).scratch.byte a) ∧
  (∀ (s : State) (d : Deal), s.running = true → s.seat.trick.toNat + 1 = s.tricks.length → s.seat.hold = none →
    s.seat.step = none → s.seat.variantAt = none → s.seat.deal = some d → (d.nrubbers = 0 ∨ s.rubber + 1 < d.nrubbers) →
    s.rubber + 1 < 2 ^ 40 → SeatSound s →
    (∀ x ∈ s.seat.variants, x.1 = BitVec.ofNat 40 (s.rubber + 1) → x.2 = s.variant) →
    ∃ t, exec .rubberBoundary s = .next t ∧ AtStart t (s.rubber + 1) 0 ∧
      ∀ p ∈ s.serving, IsOn s p → Begins t p (s.rd (Reg.CORE_START p) 12 0) ∧ (t.core p).regs = (s.core p).regs ∧
        (t.core p).xq = [] ∧
        ∃ x, (t.core p).snaps.head? = some (BitVec.ofNat 40 (s.rubber + 1), BitVec.ofNat 13 (s.rd (Reg.CORE_START p) 12 0), x) ∧
          x.s = (s.core p).regs.s ∧ x.p = (s.core p).regs.p ∧ x.sPoison = (s.core p).regs.sPoison ∧
          x.pPoison = (s.core p).regs.pPoison) ∧
  (∀ (p : PCore) (s : State) (r : Record) (rest : List Record), (s.core p).events = r :: rest →
    ∃ t, exec (.eventRecordLeave p) s = .next t ∧ t.core p = { s.core p with
        events := rest, sinkHeld := (s.core p).sinkHeld && rest.any fun x => x.code == 0x14 } ∧
      t.hubQueue = s.hubQueue ++ [r] ∧ t.rd (Reg.CORE_EVT_STAT p) 4 0 = rest.length % 32 ∧
      RegsBut [Reg.CORE_EVT_STAT p] s t ∧ CoresBut [p] s t ∧ PiecesBut [.hubQueue] s t)

/-- R270, R271, R262, R16: START, REPLAY, VARIANT and STEP, accepted in their states with arguments in order, stand for
their tick or rubber and stay open; STOP and UNLOAD take effect; STEP from HELD begins at once. -/
def Obligations.TableCommandsAccepted : Prop :=
  ∀ (gen : BitVec 4) (id : BitVec 16) (s : State), IdFree s id →
    (∀ tick, s.tblState ∈ [TS_LOADED, TS_STOPPED] → TickAhead s tick → s.seat.startAt = none →
      ∃ t, exec (.start gen id tick) s = .next t ∧ t.seat = { s.seat with startAt := some (tick, s.ref 2 gen id) } ∧
        s.ref 2 gen id ∈ t.host.opened ∧ (∀ w, (t.reg (Reg.THM_STAT w)).getLsbD 5 = false) ∧
        Changes s t (allTowers.map Reg.THM_STAT) [.seat, .host]) ∧
    (s.tblState = TS_RUNNING →
      ∃ t n, exec (.stop gen id) s = .next t ∧ t.seat.stops = s.seat.stops ++ [s.ref 3 gen id] ∧
        s.ref 3 gen id ∈ t.host.opened ∧ n.kind = 2 ∧ n.seatLvl = true ∧ n.rubber = BitVec.ofNat 40 s.rubber ∧
        n.seat = BitVec.ofNat 16 s.seatId ∧ Flooded s t n none ∧ Taken s t n ∧ CoresBut [] s t) ∧
    (s.tblState ∈ [TS_HELD, TS_STEPPING] → s.host.accesses = [] → SeatSound s →
      ∃ t, exec (.stop gen id) s = .next t ∧ t.tblState = TS_STOPPED ∧ Answered t (s.ref 3 gen id) 0 0 0 ∧
        ∀ p ∈ s.serving, s.coreState p ∈ [CS_RUNNING, CS_HELD] → t.coreState p = CS_STOPPED) ∧
    (∀ tick v d, s.tblState = TS_HELD → TickAhead s tick → s.seat.deal = some d → v.toNat < d.nvar →
      (∀ x, s.seat.replayAt = some x → x.2 = none) →
      ∃ t, exec (.replay gen id tick v) s = .next t ∧
        t.seat = { s.seat with replayAt := some (tick, some (v.toNat, s.ref 4 gen id)) } ∧ s.ref 4 gen id ∈ t.host.opened ∧
        Changes s t [] [.seat, .host]) ∧
    (∀ u v d, s.tblState = TS_RUNNING → u.toNat < 2 ^ 40 → 2400 ≤ s.cyclesTo u.toNat → s.seat.deal = some d → v.toNat < d.nvar →
      s.seat.variantAt = none →
      ∃ t, exec (.variant gen id u v) s = .next t ∧
        t.seat = { s.seat with variantAt := some (u.setWidth 40, v.toNat, s.ref 5 gen id) } ∧ s.ref 5 gen id ∈ t.host.opened ∧
        Changes s t [] [.seat, .host]) ∧
    (∀ u k tick d, u.toNat < 2 ^ 40 → TickAhead s tick → s.seat.deal = some d → k.toNat ≤ 2 → d.clocks.testBit k.toNat = true →
      s.seat.step = none →
      (s.tblState = TS_RUNNING → 2400 ≤ s.cyclesTo u.toNat →
        ∃ t, exec (.stepClock gen id u k tick) s = .next t ∧
          t.seat = { s.seat with step := some ⟨u.setWidth 40, k.toNat, tick, s.ref 6 gen id, false, false⟩ } ∧
          s.ref 6 gen id ∈ t.host.opened ∧ Changes s t [] [.seat, .host]) ∧
      (s.tblState = TS_HELD → s.host.accesses = [] → s.seat.replayAt = none →
        ∃ t, exec (.stepClock gen id u k tick) s = .next t ∧ t.tblState = TS_STEPPING ∧
          t.seat.step = some ⟨u.setWidth 40, k.toNat, tick, s.ref 6 gen id, true, true⟩ ∧
          (∃ b, t.seat.division = some { clock := k.toNat, begun := b, locked := 0 } ∧
            ∀ w : Tower, b.getLsbD w.val = (s.reg (Reg.PWR_DROOP w)).getLsbD 0) ∧
          (∀ w, (t.reg (Reg.TBL_LAYER_TRIM_STAT w)).getLsbD 16 = true))) ∧
    (s.tblState ∈ [TS_LOADED, TS_STOPPED] → s.seat.startAt = none →
      ∃ t, exec (.unload gen id) s = .next t ∧ t.tblState = TS_EMPTY ∧ t.seat.deal = none ∧ t.reg Reg.TBL_DEAL = 0 ∧
        Answered t (s.ref 7 gen id) 0 0 0 ∧ ∀ p, (t.core p).regs = (s.core p).regs ∧
          t.coreState p = if s.coreState p = CS_FAULTED then CS_STOPPED else s.coreState p)

/-- R322, R326, R327, R416: commands that do not need the table: NOP completes; STAGE stores its word at once where no
deal runs, else it waits for its rubber; MGMT joins the processor's queue, or is answered at once, or BUSY, or fails with its
read. A command
whose arguments are out of range, or whose state is wrong or identifier open, completes with RANGE or STATE and does
nothing else. -/
def Obligations.HostCommands : Prop :=
  ∀ (gen : BitVec 4) (id : BitVec 16) (s : State),
    (IdFree s id →
      (∃ t, exec (.nop gen id) s = .next t ∧ Answered t (s.ref 0x30 gen id) 0 0 0 ∧
        Changes s t [Reg.HST_CPLQ_PTR] [.host, .sent]) ∧
      (∀ (lc : Byte) (a : BitVec 32) (w : BitVec 256) (p : PCore), s.physOf lc.toNat = some p → a.toNat % 32 = 0 → a.toNat < 2 ^ 30 →
        (s.running = true → ∃ t, exec (.stage gen id lc a w) s = .next t ∧
          t.host.accesses = s.host.accesses ++ [(lc.toNat, .stage (a.toNat / 32) w (some s.seat.cycles) (s.ref 0x10 gen id))] ∧
          s.ref 0x10 gen id ∈ t.host.opened ∧ Changes s t [] [.host]) ∧
        (s.dealRuns = false → s.host.accesses = [] → ∃ t, exec (.stage gen id lc a w) s = .next t ∧
          t.vget p (a.toNat / 32) = encodeWord w (metaByte 0 false false) ∧ OnlyWords s t p [a.toNat / 32] ∧
          Answered t (s.ref 0x10 gen id) 0 0 0 ∧ t.host.accesses = [])) ∧
      (∀ (reply : W64) (load : Byte) (b : List Byte), s.sec.restarting = false → load.toNat < 90 →
        (∀ k, s.sec.queue.length < 8 → mgmtKind b = some k → k ≠ .pldm → k ≠ .spdmOther →
          (k = .fwStage → ∀ q ∈ s.sec.queue, q.kind ≠ .fwStage ∧ q.kind ≠ .fwActivate ∧ q.kind ≠ .fwCommit) → ∃ t, exec (.mgmt gen id reply (some b) load) s = .next t ∧
          t.sec = { s.sec with queue := s.sec.queue ++ [⟨s.ref 0x20 gen id, k, reply⟩] } ∧
          t.rd Reg.SEC_MGT_STAT 11 8 = s.sec.queue.length + 1 ∧ t.rd Reg.SEC_MGT_STAT 23 16 = load.toNat ∧
          s.ref 0x20 gen id ∈ t.host.opened ∧ Changes s t [Reg.SEC_MGT_STAT] [.sec, .host]) ∧
        (s.sec.queue.length < 8 → mgmtKind b = some .fwStage → (∃ q ∈ s.sec.queue, q.kind = .fwStage ∨ q.kind = .fwActivate ∨
            q.kind = .fwCommit) → ∃ t, exec (.mgmt gen id reply (some b) load) s = .next t ∧
          Replied t ⟨s.ref 0x20 gen id, .fwStage, reply⟩ 2 1 1 [] ∧ t.sec = s.sec) ∧
        (s.sec.queue.length < 8 → mgmtKind b = some .pldm → ∃ t, exec (.mgmt gen id reply (some b) load) s = .next t ∧
          Replied t ⟨s.ref 0x20 gen id, .pldm, reply⟩ 1 0 0 (Config.pldmReply s.sec.sensors (b.drop 16)) ∧ t.sec = s.sec) ∧
        (s.sec.queue.length < 8 → mgmtKind b = some .spdmOther → ∃ t, exec (.mgmt gen id reply (some b) load) s = .next t ∧
          .spdm (.error .unsupportedRequest) ∈ t.sent ∧ t.sec = s.sec ∧
          Replied t ⟨s.ref 0x20 gen id, .spdmOther, reply⟩ 1 0 0 (Config.spdmBytes (.error .unsupportedRequest))) ∧
        (8 ≤ s.sec.queue.length → s.sec.queue.length ≤ 131 → ∃ t, exec (.mgmt gen id reply (some b) load) s = .next t ∧
          Answered t (s.ref 0x20 gen id) 2 0 (500 * s.sec.queue.length) ∧
          t.rd Reg.SEC_MGT_STAT 47 32 = min 65535 (s.rd Reg.SEC_MGT_STAT 47 32 + 1) ∧ t.sec = s.sec) ∧
        (∃ t, exec (.mgmt gen id reply none load) s = .next t ∧ Answered t (s.ref 0x20 gen id) 5 0 0 ∧ t.sec = s.sec))) ∧
    (∀ (cmd : Instr) (c : CmdRef),
      (∃ tick, cmd = .start gen id tick ∧ c = s.ref 2 gen id ∧
        (s.tblState ∉ [TS_LOADED, TS_STOPPED] ∨ ¬TickAhead s tick ∨ ¬IdFree s id)) ∨
      (cmd = .stop gen id ∧ c = s.ref 3 gen id ∧ (s.tblState ∉ [TS_RUNNING, TS_HELD, TS_STEPPING] ∨ ¬IdFree s id)) ∨
      (cmd = .unload gen id ∧ c = s.ref 7 gen id ∧ (s.tblState ∉ [TS_LOADED, TS_STOPPED] ∨ ¬IdFree s id)) →
      ∃ t, exec cmd s = .next t ∧ Responded t c 1 s.tblState 0 [] ∧ t.host.opened = s.host.opened ∧
        Logs s t 0x50 (id.toNat * 2 ^ 32 + gen.toNat * 2 ^ 24 + s.tblState * 2 ^ 8 + c.opcode.toNat) 0 ∧
        Changes s t [Reg.HST_CPLQ_PTR, Reg.HST_CMD_STAT] [.host, .sent, .hubQueue]) ∧
    (∀ (lc : Byte) (a : BitVec 32) (w : BitVec 256), a.toNat % 32 ≠ 0 ∨ 2 ^ 30 ≤ a.toNat →
      ∃ t, exec (.stage gen id lc a w) s = .next t ∧ Responded t (s.ref 0x10 gen id) 3 0 0 [] ∧
        t.host.opened = s.host.opened ∧ Changes s t [Reg.HST_CPLQ_PTR] [.host, .sent])

/-- R264 to R268, R270, R359, R260: a LOAD whose part parses and has no misdeal, on cores that are ON, puts the deal in the
seat and completes; on cores that are not, it waits for them. A part that does not parse is a misdeal of reason 1, and one
with a finding a misdeal of the lowest reason; after it, and after a failed read, the seat is EMPTY. -/
def Obligations.LoadCommand : Prop :=
  ∀ (gen : BitVec 4) (id : BitVec 16) (s : State), IdFree s id → s.tblState ∈ [TS_EMPTY, TS_LOADED, TS_STOPPED] →
    s.seat.startAt = none →
    let c := s.ref 1 gen id
    let judged : State := (openedWith s c).beginLoad.recordPartners
    (∃ t, exec (.load gen id none) s = .next t ∧ t.tblState = TS_EMPTY ∧ t.seat.deal = none ∧ Answered t c 5 0 0) ∧
    (∀ b i, parsePart b = .inr i → ∃ t, exec (.load gen id (some b)) s = .next t ∧ t.tblState = TS_EMPTY ∧
      t.seat.deal = none ∧ t.reg Reg.TBL_MISDEAL = BitVec.ofNat 64 (2 ^ 56 + i % 2 ^ 32) ∧
      Logs s t 0x31 (2 ^ 56 + i % 2 ^ 32) 0 ∧ Answered t c 4 1 0) ∧
    (∀ b p r d, parsePart b = .inl p → judged.misdealOf p = some (r, d) →
      ∃ t, exec (.load gen id (some b)) s = .next t ∧ t.tblState = TS_EMPTY ∧ t.seat.deal = none ∧
        t.reg Reg.TBL_MISDEAL = BitVec.ofNat 64 (r * 2 ^ 56 + d % 2 ^ 32) ∧ Logs s t 0x31 (r * 2 ^ 56 + d % 2 ^ 32) 0 ∧
        Answered t c 4 r 0) ∧
    (∀ b p, parsePart b = .inl p → judged.misdealOf p = none →
      ((∀ q ∈ s.serving, IsOn s q ∧ s.rd (Reg.CORE_PWR q) 8 8 = 0) →
        ∃ t, exec (.load gen id (some b)) s = .next t ∧ t.tblState = TS_LOADED ∧ t.seat.deal = some p.deal ∧
          t.seat.loading = none ∧ t.reg Reg.TBL_DEAL = p.deal.dealId ∧ t.variant = 0 ∧ Answered t c 0 0 0 ∧
          ∀ q, t.reg (Reg.CORE_SR_SEED0 q) = p.deal.seed.extractLsb' 0 64 ∧
            t.reg (Reg.CORE_SR_SEED1 q) = p.deal.seed.extractLsb' 64 64) ∧
      ((∃ q ∈ s.serving, ¬(IsOn s q ∧ s.rd (Reg.CORE_PWR q) 8 8 = 0)) →
        ∃ t x, exec (.load gen id (some b)) s = .next t ∧ t.tblState = TS_LOADING ∧ t.seat.deal = none ∧
          t.seat.loading = some x ∧ x.cmd = c ∧ x.deal = p.deal ∧ c ∈ t.host.opened ∧
          ∀ q ∈ s.serving, t.rd (Reg.CORE_PWR q) 1 0 = 0 ∧
            (¬(IsOn s q ∧ s.rd (Reg.CORE_PWR q) 8 8 = 0) → t.rd (Reg.CORE_PWR q) 8 8 = 1)))

/-- R241, R254, R90, R261, R262, R263, R267, R270: what the named ticks do. START_TICK starts rubber 0, or is a misdeal of
reason 11 where a partner holds another deal; REPLAY_TICK replays the held rubber, each core from the snapshot and start
index kept for it, its vectors, arrays and scratch as they were, or replays it in another variant; RESUME_TICK starts the
rubber that the step named; STEP_DEFERRAL floods a deferral of the resume tick. -/
def Obligations.NamedTicks : Prop :=
  (∀ (s : State) (tick : W64) (c : CmdRef) (d : Deal), s.seat.startAt = some (tick, c) → s.seat.deal = some d →
    s.tblState ∈ [TS_LOADED, TS_STOPPED] →
    (s.partnerDiffers d = none → s.variant = 0 → s.seat.variantAt = none → SeatSound s →
      ∃ t, exec .startTick s = .next t ∧ AtStart t 0 0 ∧ t.now = max s.now tick.toNat ∧ t.seat.startAt = none ∧
        Answered t c 0 0 0 ∧ ∀ p ∈ s.serving, IsOn s p → Begins t p (s.rd (Reg.CORE_START p) 12 0)) ∧
    (∀ l, s.partnerDiffers d = some l →
      ∃ t, exec .startTick s = .next t ∧ t.tblState = TS_STOPPED ∧ Answered t c 4 11 0 ∧
        t.reg Reg.TBL_MISDEAL = BitVec.ofNat 64 (11 * 2 ^ 56 + l.val) ∧ t.seat.deal = some d)) ∧
  (∀ (s : State) (tick : W64) (u : BitVec 40), s.tblState = TS_HELD → s.seat.division = none → s.seat.lowest = some u →
    s.seat.step = none → s.seat.variantAt = none → SeatSound s →
    s.seat.variants.find? (fun x => x.1 == u) = some (u, s.variant) →
    ((s.seat.replayAt = some (tick, none) ∧ s.seat.hold = some 0) ∨
      (∃ c, s.seat.replayAt = some (tick, some (s.variant, c)) ∧ s.boot.sparing = none)) →
    ∃ t, exec .replayTick s = .next t ∧ AtStart t u.toNat ((s.attemptOf u.toNat + 1) % 256) ∧
      t.now = max s.now tick.toNat ∧ t.variant = s.variant ∧
      (∀ v c, s.seat.replayAt = some (tick, some (v, c)) → Answered t c 0 0 0) ∧
      ∀ p ∈ s.serving, IsOn s p → ∀ x, (s.core p).snaps.find? (fun x => x.1 == u) = some x →
        Begins t p x.2.1.toNat ∧ (t.core p).regs.s = x.2.2.s ∧ (t.core p).regs.p = x.2.2.p ∧
          (t.core p).regs.sPoison = x.2.2.sPoison ∧ (t.core p).regs.pPoison = x.2.2.pPoison ∧
          (t.core p).regs.v = (s.core p).regs.v ∧ (t.core p).arrays = (s.core p).arrays ∧
          ∀ a, (t.core p).scratch.byte a = (s.core p).scratch.byte a) ∧
  (∀ (s : State) (tick : W64) (u : BitVec 40) (v : Nat) (c : CmdRef), s.tblState = TS_HELD → s.seat.division = none →
    s.seat.lowest = some u → s.seat.step = none → s.seat.variantAt = none → SeatSound s → s.boot.sparing = none →
    s.seat.replayAt = some (tick, some (v, c)) → s.seat.deal ≠ none → v < 16 →
    ∃ t, exec .replayTick s = .next t ∧ AtStart t u.toNat ((s.attemptOf u.toNat + 1) % 256) ∧ t.variant = v ∧
      t.now = max s.now tick.toNat ∧ Answered t c 0 0 0) ∧
  (∀ (s : State) (p : StepPlan), s.seat.step = some p → p.begun = true → s.seat.division = none → s.boot.sparing = none →
    (∀ w : Tower, (s.reg (Reg.PWR_DROOP w)).getLsbD 0 = true) → SeatSound s →
    (s.tblState = TS_STEPPING → p.replay = false → s.seat.variantAt = none →
      ∃ t, exec .resumeTick s = .next t ∧ AtStart t p.rubber.toNat 0 ∧ t.now = max s.now p.resume.toNat ∧
        t.seat.step = none ∧ Answered t p.cmd 0 0 0) ∧
    (s.tblState = TS_HELD →
      ∃ t, exec .resumeTick s = .next t ∧ t.tblState = TS_HELD ∧ t.seat.step = none ∧ Answered t p.cmd 0 0 0)) ∧
  (∀ (s : State) (p : StepPlan) (lock : W64), s.tblState = TS_STEPPING → s.seat.step = some p → p.begun = true →
    (s.seat.division ≠ none ∨ ∃ w : Tower, (s.reg (Reg.PWR_DROOP w)).getLsbD 0 = false) →
    ∃ t n busy, exec (.stepDeferral lock) s = .next t ∧ n.kind = 4 ∧ n ∈ t.seat.seen ∧ Flooded s t n none ∧
      (lock.toNat + 505 ≤ 2 ^ 64 → lock.toNat + 500 ≤ n.actTick.toNat ∧ n.actTick.toNat < lock.toNat + 505 ∧
        n.actTick.toNat % 5 = 0) ∧
      t.seat.step = some { p with resume := if p.resume.toNat < n.actTick.toNat then n.actTick else p.resume } ∧
      (∀ w : Tower, busy.testBit w.val = !(s.reg (Reg.PWR_DROOP w)).getLsbD 0) ∧ busy < 16 ∧
      Logs s t 0x46 (lock.toNat % 2 ^ 32 * 2 ^ 32 + busy) 0)

/-- R249 to R251, R253, R256, R283, R92, R95: a core's request becomes a notice of its kind that names its rubber, its
trick and its bundle; a notice originated or received is flooded on every other link that carries notices, twice, and a
running seat takes it. A copy of one held already, or one on a link that carries none, does nothing but what its frame's
ACKSEQ and NAK ask; a notice that comes too late makes the seat stop; a seat without a deal passes it on only. -/
def Obligations.Notices : Prop :=
  (∀ (c : PCore) (s : State) (r : Record) (tick : W64) (rest : List (Record × W64)), (s.core c).requests = (r, tick) :: rest →
    s.running = true →
    ((r.req = 1 ∧ (s.seat.hold = none ∨ s.seat.hold = some 0) ∧ s.attemptOf (requestRubber r) = 0 ∧ 1 ≤ s.seat.limit) ∨
      r.req = 2 ∨ r.req = 3) →
    ∃ t n, exec (.noticeOriginate c) s = .next t ∧ n.kind.toNat = r.req.toNat - 1 ∧
      n.rubber = BitVec.ofNat 40 (requestRubber r) ∧ n.attempt = BitVec.ofNat 8 (s.attemptOf (requestRubber r)) ∧
      n.seat = BitVec.ofNat 16 s.seatId ∧ n.lcore = BitVec.ofNat 8 (s.lcoreOf c) ∧ n.trick = r.tag.extractLsb' 0 24 ∧
      n.code = r.code ∧ n.bundle = r.bundle ∧ n.seatLvl = false ∧ n.originTick = tick ∧
      (r.req = 1 → ∀ d, s.seat.deal = some d → n.actTick = BitVec.ofNat 64 ((tick.toNat + d.replayLead + 4) / 5 * 5)) ∧
      Flooded s t n none ∧ Taken s t n ∧ (t.core c).requests = rest ∧ CoresBut [c] s t) ∧
  (∀ (l : LinkIx) (h : FrameHead) (s : State) (n : Notice), s.linkOpen l = true → h.rsv = false → n ∉ s.seat.seen →
    (s.dealRuns = false → ∃ t, exec (.noticeReceive l ⟨h, n⟩) s = .next t ∧ PassedOn s t n l h ∧ n ∈ t.seat.seen ∧
      Changes s t [] [.seat, .links]) ∧
    (s.running = true → n.kind.toNat ≤ 3 → s.isLate n = false →
      ∃ t, exec (.noticeReceive l ⟨h, n⟩) s = .next t ∧ PassedOn s t n l h ∧ Taken s t n ∧ CoresBut [] s t ∧
        (n.kind = 0 → s.seat.replayAt = none → t.seat.replayAt = some (n.actTick, none)) ∧
        ∃ u, t.seat.lowest = some u ∧ u.toNat ≤ n.rubber.toNat) ∧
    (s.running = true → n.kind.toNat ≤ 3 → n.rubber.toNat + 1 < s.rubber →
      ∃ t m, exec (.noticeReceive l ⟨h, n⟩) s = .next t ∧ Taken s t m ∧ m.kind = 2 ∧ m.code = 0x33 ∧ m.seatLvl = true ∧
        Logs s t 0x33 (n.kind.toNat * 2 ^ 56 + n.attempt.toNat * 2 ^ 48 + n.seat.toNat * 2 ^ 32 + n.rubber.toNat % 2 ^ 32) 3)) ∧
  (∀ (l : LinkIx) (h : FrameHead) (s : State) (n : Notice), h.rsv = false → s.linkOpen l = false ∨ n ∈ s.seat.seen →
    ∃ t, exec (.noticeReceive l ⟨h, n⟩) s = .next t ∧ (∀ k, k ≠ l → t.link k = s.link k) ∧
      (t.link l = s.link l ∨ Acked (s.link l) (t.link l) h ∧ (t.link l).notices = (s.link l).notices) ∧ Changes s t [] [.links])

/-! ### Links -/

namespace Sys2Proof.Claims

open Sys2Proof.Machine

/-- The registers of a link. -/
def linkRegs (l : LinkIx) : List Nat :=
  [Reg.LNK_CTL l, Reg.LNK_STAT l, Reg.LNK_PARTNER l, Reg.LNK_PARTNER_CERT l, Reg.LNK_ERR_CNT l, Reg.LNK_DELAY l]

/-- A command has done something to one link only: its registers, its state, and events on their way to the log. -/
def OneLink (s t : State) (l : LinkIx) : Prop :=
  (∀ k, k ≠ l → t.link k = s.link k) ∧ Changes s t (linkRegs l) [.links, .hubQueue]

/-- A link's traffic and what discovery had learned are gone (R278). -/
def Emptied (x : Link) : Prop :=
  x.replay = [] ∧ x.out = [] ∧ x.notices = [] ∧ x.hello = none ∧ x.admission = none ∧ x.nextSeq = 0 ∧ x.expect = 0

/-- A link has gone down for a cause, and says so (R278, R300). -/
def WentDown (s t : State) (l : LinkIx) (state cause : Nat) : Prop :=
  t.linkState l = state ∧ Emptied (t.link l) ∧ (t.link l).stage = .idle ∧ Logs s t 0x20 (cause * 2 ^ 8 + l.val) 0 ∧ OneLink s t l

/-- Frames flow on a link: it has completed Align. -/
abbrev FramesFlow (s : State) (l : LinkIx) : Prop := s.linkState l ∈ [LS_DISCOVERY, LS_UP, LS_STANDBY, LS_FENCED]

/-- The number of lanes of a set, and the lane sets that a link may use, best first (R277). -/
def laneChoice (mask most : Nat) : Option (Nat × Nat) :=
  if mask % 16 = 15 ∧ 4 ≤ most then some (15, 4)
  else if mask % 4 = 3 ∧ 2 ≤ most then some (3, 2)
  else if mask / 4 % 4 = 3 ∧ 2 ≤ most then some (12, 2)
  else if mask % 2 = 1 then some (1, 1)
  else if mask / 2 % 2 = 1 then some (2, 1)
  else if mask / 4 % 2 = 1 then some (4, 1)
  else if mask / 8 % 2 = 1 then some (8, 1) else none

/-- The most lanes that WIDTH_MAX allows: 0 one, 1 two, else four. -/
def widthOf (w : Nat) : Nat := if w = 0 then 1 else if w = 1 then 2 else 4

/-- A frame as it leaves on a link (R279, R280, R282): its bytes with the link's ACKSEQ and NAK, on the lanes in use. -/
def onWire (s : State) (l : LinkIx) (seq : BitVec 16) (f : Frame) : Sent :=
  .linkFrame l.val (striped ((List.range 4).filter fun k => (s.reg (Reg.LNK_STAT l)).getLsbD (4 + k))
    (f.bytes { seq, ackseq := (s.link l).expect, nak := (s.link l).nak, rsv := false }))

/-- A frame whose fields fit the header of R280. -/
def FrameFits (f : Frame) : Prop :=
  f.type ≤ 5 ∧ f.attempt < 2 ^ 8 ∧ f.dtag < 2 ^ 16 ∧ f.blk < 2 ^ 14 ∧ f.dest < 2 ^ 10

/-- The frames of a discovery message joined those that a link sends. -/
def Sends (x y : Link) (ms : List (List Byte)) : Prop :=
  ∃ more, y.out = x.out ++ (ms.flatMap fragments).map (fun f => (f, false)) ++ more

end Sys2Proof.Claims

/-- R276 to R278, R300: training. The stages follow one another; Align takes the first lane set of R277 that both ends
find good, and begins discovery; a stage that reaches its limit fails the attempt, the third in a row the link. Loss of
signal, RETRAIN and ENABLE = 0 take the link down with its cause, and the retry timer begins detection again. -/
def Obligations.LinkTraining : Prop :=
  ∀ (l : LinkIx) (s : State),
    ((s.link l).stage = .detect → s.linkState l ∈ [LS_DOWN, LS_TRAINING] →
      ∃ t, exec (.linkDetect l) s = .next t ∧ t.linkState l = LS_TRAINING ∧ t.link l = { s.link l with stage := .equalise } ∧
        t.rd (Reg.LNK_STAT l) 63 48 = min 65535 (s.rd (Reg.LNK_STAT l) 63 48 + 1) ∧ OneLink s t l) ∧
    ((s.link l).stage = .equalise →
      ∃ t, exec (.linkEqualiseDone l) s = .next t ∧ t.link l = { s.link l with stage := .check } ∧ RegsBut [] s t ∧ OneLink s t l) ∧
    (∀ good : BitVec 4, (s.link l).stage = .check →
      ∃ t, exec (.linkCheckDone l good) s = .next t ∧ t.link l = { s.link l with stage := .align, passed := good } ∧
        RegsBut [] s t ∧ OneLink s t l) ∧
    (∀ (good : BitVec 4) (w : BitVec 2) (x : Nat × Nat), (s.link l).stage = .align →
      laneChoice ((s.link l).passed &&& good).toNat
        (min (widthOf (s.rd (Reg.LNK_CTL l) 5 4)) (widthOf w.toNat)) = some x →
      ∃ t, exec (.linkAlign l good w) s = .next t ∧ t.linkState l = LS_DISCOVERY ∧ t.rd (Reg.LNK_STAT l) 7 4 = x.1 ∧
        t.rd (Reg.LNK_STAT l) 11 8 = ((s.link l).passed &&& good).toNat ∧ (t.link l).stage = .discover ∧ Emptied (t.link l) ∧ OneLink s t l ∧
        (x.2 < 4 → Logs s t 0x21 (x.1 * 2 ^ 8 + l.val) 0) ∧ (x.2 = 4 → t.hubQueue = s.hubQueue)) ∧
    ((s.link l).stage ∈ [Stage.equalise, .check, .align, .discover] →
      ((s.link l).fails < 2 → ∃ t, exec (.trainingStageTimeout l) s = .next t ∧ t.linkState l = LS_TRAINING ∧
        (t.link l).stage = .detect ∧ (t.link l).fails = (s.link l).fails + 1 ∧ Emptied (t.link l) ∧ OneLink s t l) ∧
      (2 ≤ (s.link l).fails → ∃ t, exec (.trainingStageTimeout l) s = .next t ∧ t.linkState l = LS_FAILED ∧
        (t.link l).stage = .idle ∧ Logs s t 0x23 (s.rd (Reg.LNK_STAT l) 11 8 * 2 ^ 8 + l.val) 0 ∧ OneLink s t l)) ∧
    (((s.linkState l = LS_DOWN ∧ (s.link l).stage = .idle) ∨ s.linkState l = LS_FAILED) →
      (s.reg (Reg.LNK_CTL l)).getLsbD 2 = true →
      ∃ t, exec (.linkRetryTimer l) s = .next t ∧ t.linkState l = LS_DOWN ∧ t.link l = { s.link l with stage := .detect } ∧
        OneLink s t l) ∧
    (FramesFlow s l →
      ((s.reg (Reg.LNK_CTL l)).getLsbD 0 = true →
        (∃ t, exec (.lossOfSignal l) s = .next t ∧ WentDown s t l LS_DOWN 1) ∧
        (∃ t, exec (.retrain l) s = .next t ∧ WentDown s t l LS_DOWN 4 ∧ (t.reg (Reg.LNK_CTL l)).getLsbD 3 = true)) ∧
      (∃ t, exec (.linkDisable l) s = .next t ∧ WentDown s t l LS_DISABLED 5 ∧
        (t.reg (Reg.LNK_CTL l)).getLsbD 0 = false))

/-- R281 to R283, R286, R294, R304: frames. A frame of a bad CRC is counted and asked for again, the eighth in a row takes
the link down; a good one acknowledges; a sequenced frame is taken in its order alone: a block of this seat joins the
receive buffer or the operand of its engine entry, a fragment its message. A frame time sends a notice first, then a
re-send, then the frame that waits longest, which it keeps for re-sending unless it is TIME, else IDLE. -/
def Sys2Proof.Claims.LinkFramesTaken : Prop :=
  ∀ (l : LinkIx) (s : State), FramesFlow s l →
    ((s.link l).bad < 7 → ∃ t, exec (.frameCrcFail l) s = .next t ∧
      t.link l = { s.link l with bad := (s.link l).bad + 1, nak := true } ∧
      t.rd (Reg.LNK_ERR_CNT l) 63 48 = min 65535 (s.rd (Reg.LNK_ERR_CNT l) 63 48 + 1) ∧
      FieldsBut s t (Reg.LNK_ERR_CNT l) [(63, 48)] ∧ OneLink s t l ∧ t.hubQueue = s.hubQueue) ∧
    ((s.link l).bad = 7 → (s.reg (Reg.LNK_CTL l)).getLsbD 0 = true →
      ∃ t, exec (.frameCrcFail l) s = .next t ∧ WentDown s t l LS_DOWN 2) ∧
    (∀ (h : FrameHead) (f : Frame) (n : Notice) (tick : W64), h.rsv = true →
      ∀ cmd ∈ [Instr.idle l h, .disc l h f.data, .data l h f, .coll l h ⟨f, 0⟩, .noticeReceive l ⟨h, n⟩, .timeFrame l ⟨h, tick⟩ 0 0],
      ∃ t, exec cmd s = .next t ∧ t.link l = { s.link l with bad := 0 } ∧
        t.rd (Reg.LNK_ERR_CNT l) 15 0 = min 65535 (s.rd (Reg.LNK_ERR_CNT l) 15 0 + 1) ∧ OneLink s t l) ∧
    (∀ h : FrameHead, h.rsv = false →
      (∃ t, exec (.idle l h) s = .next t ∧ Acked (s.link l) (t.link l) h ∧ (t.link l).expect = (s.link l).expect ∧
        RegsBut [] s t ∧ OneLink s t l) ∧
      (∀ payload, h.seq = (s.link l).expect → ∃ t, exec (.disc l h payload) s = .next t ∧ Acked (s.link l) (t.link l) h ∧
        (t.link l).frags = (s.link l).frags ++ [payload] ∧ (t.link l).expect = (s.link l).expect + 1 ∧
        (t.link l).nak = false ∧ RegsBut [] s t ∧ OneLink s t l) ∧
      (∀ f sender payload, h.seq ≠ (s.link l).expect → ∀ cmd ∈ [Instr.data l h f, .coll l h ⟨f, sender⟩, .disc l h payload],
        ∃ t, exec cmd s = .next t ∧ Acked (s.link l) (t.link l) h ∧ (t.link l).nak = true ∧
          (t.link l).expect = (s.link l).expect ∧ RegsBut [] s t ∧ OneLink s t l) ∧
      (∀ f : Frame, h.seq = (s.link l).expect → s.linkOpen l = true → s.rd Reg.TBL_FORM_STAT 0 0 = 1 → f.dest = s.seatId →
        f.attempt = s.attempt →
        (∀ lc, s.arrival f.attempt f.dtag (l.val / 12) none = .inr lc →
          ∃ t, exec (.data l h f) s = .next t ∧ Acked (s.link l) (t.link l) h ∧ (t.link l).expect = (s.link l).expect + 1 ∧
            t.seat = { s.seat with rx := s.seat.rx ++ [⟨lc, f.dtag, f.blk, l.val / 12, ⟨f.data, f.poison⟩⟩] } ∧
            Changes s t [] [.seat, .links]) ∧
        (∀ (c : CollEntry) (i : CollDesc) (sender : BitVec 10), c ∈ s.entriesNow → c.dtag = f.dtag → c.engine = l.val / 12 →
          (∀ x ∈ s.entriesNow, x.dtag = f.dtag → x = c) → i ∈ c.ins → i.kind = 1 → i.place = l.val → i.peer = sender.toNat →
          f.blk < i.nblk → (∀ x ∈ c.ins, x.kind = 1 → x.place = l.val → x.peer = sender.toNat → x = i) → c.dtag ∉ (s.engine c.eng).abandoned →
          (s.engine c.eng).operand c.dtag i.operand (i.first + f.blk) = none →
          ∃ t, exec (.coll l h ⟨f, sender⟩) s = .next t ∧ (t.link l).expect = (s.link l).expect + 1 ∧
            (t.engine c.eng).operand c.dtag i.operand (i.first + f.blk) = some ⟨f.data, f.poison⟩ ∧ t.seat = s.seat ∧
            CoresBut [] s t))) ∧
    ((s.link l).replay ≠ [] → ∃ t, exec (.resendTimeout l) s = .next t ∧ t.link l = { s.link l with cursor := 0 } ∧
      RegsBut [] s t ∧ OneLink s t l) ∧
    ((s.link l).said = some (s.ownHello l) →
      (∀ n k rest, (s.link l).notices = (n, k) :: rest → ∃ t, exec (.frameTime l) s = .next t ∧
        t.sent = onWire s l 0 (Frame.notice n) :: s.sent ∧
        t.link l = { s.link l with notices := if 1 < k then (n, k - 1) :: rest else rest } ∧
        Changes s t moduleCounters [.links, .sent]) ∧
      ((s.link l).notices = [] →
        (∀ h, (s.link l).replay[(s.link l).cursor]? = some h → h.sends < 8 → s.rd (Reg.LNK_CTL l) 31 16 = 0 →
          ∃ t, exec (.frameTime l) s = .next t ∧
            t.sent = onWire s l h.seq h.frame :: s.sent ∧
            (t.link l).cursor = (s.link l).cursor + 1 ∧
            (t.link l).replay = (s.link l).replay.set (s.link l).cursor { h with sends := h.sends + 1, at_ := s.now } ∧
            t.rd (Reg.LNK_ERR_CNT l) 47 32 = min 65535 (s.rd (Reg.LNK_ERR_CNT l) 47 32 + 1)) ∧
        ((s.link l).replay[(s.link l).cursor]? = none →
          (∀ f rest, (s.link l).out = f :: rest →
            (f.1.type = 5 → ∃ t, exec (.frameTime l) s = .next t ∧
              t.sent = onWire s l 0 (Frame.time (s.reg Reg.TBL_TIME) s.seat.phase) :: s.sent ∧
              t.link l = { s.link l with out := rest } ∧ Changes s t moduleCounters [.links, .sent]) ∧
            (f.1.type ≠ 5 → (s.link l).replay.length < 256 →
              ∃ t, exec (.frameTime l) s = .next t ∧ t.sent = onWire s l (s.link l).nextSeq f.1 :: s.sent ∧
                (t.link l).out = rest ∧ (t.link l).nextSeq = (s.link l).nextSeq + 1 ∧
                (t.link l).replay = (s.link l).replay ++ [⟨(s.link l).nextSeq, f.1, 1, s.now⟩] ∧
                Changes s t moduleCounters [.links, .sent]) ∧
            (f.1.type ≠ 5 → 256 ≤ (s.link l).replay.length → ∃ t, exec (.frameTime l) s = .next t ∧
              t.sent = onWire s l 0 Frame.idle :: s.sent ∧ t.link l = s.link l ∧
              Changes s t moduleCounters [.links, .sent])) ∧
          ((s.link l).out = [] → ∃ t, exec (.frameTime l) s = .next t ∧
            t.sent = onWire s l 0 Frame.idle :: s.sent ∧ t.link l = s.link l ∧
            Changes s t moduleCounters [.links, .sent]))))

/-- R279 to R281: a frame is 272 bytes; a receiver that finds its CRC good reads its header and payload back, and none where
any bit differs in the CRC alone; byte k is carried by lane k mod w. -/
def Sys2Proof.Claims.FrameLayout : Prop :=
  ∀ (f : Frame) (h : FrameHead), FrameFits f → h.rsv = false →
    (f.bytes h).length = 272 ∧ frameOf (f.bytes h) = some (h, f) ∧
    (∀ b : List Byte, b.length = 272 → b.take 268 = (f.bytes h).take 268 → b ≠ f.bytes h → frameOf b = none) ∧
    ((f.bytes h).take 1 = leBytes 1 (f.type + (if f.poison = true then 16 else 0) + (if h.nak = true then 32 else 0)) ∧
      ((f.bytes h).drop 1).take 1 = leBytes 1 f.attempt ∧ ((f.bytes h).drop 2).take 2 = leBytes 2 h.seq.toNat ∧
      ((f.bytes h).drop 4).take 2 = leBytes 2 h.ackseq.toNat ∧ ((f.bytes h).drop 6).take 2 = leBytes 2 f.dtag ∧
      ((f.bytes h).drop 8).take 2 = leBytes 2 f.blk ∧ ((f.bytes h).drop 10).take 2 = leBytes 2 f.dest) ∧
    ∀ (lanes : List Nat) (i k : Nat), i < lanes.length → i + k * lanes.length < 272 →
      ((striped lanes (f.bytes h))[i]?).map (fun x => x.2[k]?) = some ((f.bytes h)[i + k * lanes.length]?)

/-- R293 to R299: discovery. HELLO shows its partner and answers the first with CERT and CHALLENGE; a chain or response is
kept with what the management processor found; a challenge is answered; a CONFIRM of 0 from both ends brings the link up,
any other fences it. TBL_FORM is written in EMPTY alone and starts discovery again. A seat with an identity sends TIME on
the links that formed, and one without a deal takes its parent's. -/
def Obligations.Discovery : Prop :=
  (∀ (l : LinkIx) (s : State), FramesFlow s l →
    (∀ m : Hello, ∃ t, exec (.hello l m) s = .next t ∧ (t.link l).hello = some m ∧
      t.rd (Reg.LNK_PARTNER l) 31 16 = m.seat % 2 ^ 16 ∧ t.rd (Reg.LNK_PARTNER l) 45 40 = m.link % 64 ∧
      (t.reg (Reg.LNK_PARTNER l)).getLsbD 56 = m.dummy ∧
      t.reg (Reg.LNK_PARTNER_CERT l) = BitVec.ofNat 64 (leNat (m.certDigest.take 8)) ∧
      ((s.link l).hello = none →
        Sends (s.link l) (t.link l) [Config.certChain, leBytes 32 (Config.nonce l.val (s.link l).nonces).toNat]) ∧
      CoresBut [] s t) ∧
    (∀ ok : Bool, (∃ t, exec (.cert l ok) s = .next t ∧ (t.link l).cert = some ok ∧ CoresBut [] s t) ∧
      (∃ t, exec (.response l ok) s = .next t ∧ (t.link l).resp = some ok ∧ CoresBut [] s t)) ∧
    (∀ n : BitVec 256, ∃ t, exec (.challenge l n) s = .next t ∧ (t.link l).nonce = some n ∧
      Sends (s.link l) (t.link l)
        [responseOf n (Config.nonce l.val ((s.link l).nonces - 1)) (s.link l).hello (s.link l).said] ∧
      RegsBut [] s t ∧ OneLink s t l) ∧
    (∀ (h : Hello) (v : Nat) (rubber : BitVec 40), (s.link l).stage = .discover → (s.link l).hello = some h →
      (s.link l).own = some (0, v) →
      (s.seat.deal = none → s.seat.loading = none →
        ∃ t, exec (.confirm l 0 rubber) s = .next t ∧ t.linkState l = LS_UP ∧ (t.link l).theirs = some (0, rubber.toNat) ∧
          (t.link l).stage = .idle ∧ (t.link l).admission = none ∧ (t.reg (Reg.LNK_PARTNER l)).getLsbD 63 = true ∧
          t.rd (Reg.LNK_STAT l) 35 32 = 0 ∧ OneLink s t l) ∧
      (∀ r : BitVec 4, r ≠ 0 → s.linkState l ≠ LS_FENCED →
        ∃ t, exec (.confirm l r rubber) s = .next t ∧ t.linkState l = LS_FENCED ∧ t.rd (Reg.LNK_STAT l) 35 32 = r.toNat ∧
          OneLink s t l))) ∧
  (∀ s : State, ∃ t, exec .helloPeriod s = .next t ∧ Changes s t [] [.links] ∧
    ∀ l, (FramesFlow s l → (t.link l).said = some (s.ownHello l) ∧
        (t.link l).out = (s.link l).out ++ (fragments (Config.helloBytes (s.ownHello l))).map fun f => (f, false)) ∧
      (¬FramesFlow s l → t.link l = s.link l)) ∧
  (∀ s : State, s.rd Reg.TBL_FORM_STAT 0 0 = 1 → ∃ t, exec .timePeriod s = .next t ∧ Changes s t [] [.links] ∧
    ∀ l, (FramesFlow s l → s.linkState l ≠ LS_DISCOVERY → (∀ f ∈ (s.link l).out, f.1.type ≠ 5) →
        ∃ f : Frame, f.type = 5 ∧ t.link l = { s.link l with out := (s.link l).out ++ [(f, false)] }) ∧
      (¬(FramesFlow s l ∧ s.linkState l ≠ LS_DISCOVERY) ∨ (∃ f ∈ (s.link l).out, f.1.type = 5) → t.link l = s.link l)) ∧
  (∀ (v : W64) (s : State),
    (s.tblState = TS_EMPTY → ∃ t, exec (.tblFormWrite v) s = .next t ∧
      (∀ i < 64, (t.reg Reg.TBL_FORM).getLsbD i = writtenBits (s.reg Reg.TBL_FORM) v [(63, 16), (2, 1)] i) ∧
      (∀ l, FramesFlow s l → t.linkState l = LS_DISCOVERY ∧ (t.link l).stage = .discover ∧ (t.link l).hello = none) ∧
      (v.getLsbD 2 = false → t.reg Reg.TBL_FORM_STAT = 0xFFFC ∧ t.seatId = 0) ∧
      (v.getLsbD 2 = true → v.getLsbD 1 = false → t.rd Reg.TBL_FORM_STAT 1 0 = 3 ∧ t.rd Reg.TBL_FORM_STAT 15 8 = 0 ∧
        t.seatId = 0) ∧ CoresBut [] s t) ∧
    (s.tblState ≠ TS_EMPTY → ∃ t, exec (.tblFormWrite v) s = .next t ∧ t.reg Reg.TBL_FORM = s.reg Reg.TBL_FORM ∧
      Logs s t 0x52 Reg.TBL_FORM 0 ∧ Changes s t [Reg.HST_ACCESS_LOG, Reg.HST_CMD_STAT] [.hubQueue])) ∧
  (∀ (l : LinkIx) (h : FrameHead) (tick : W64) (phase rtt : BitVec 16) (s : State), FramesFlow s l →
    s.linkState l ≠ LS_DISCOVERY → s.rd Reg.TBL_FORM_STAT 0 0 = 1 → h.rsv = false →
    ∃ t, exec (.timeFrame l ⟨h, tick⟩ phase rtt) s = .next t ∧ Acked (s.link l) (t.link l) h ∧
      t.rd (Reg.LNK_DELAY l) 31 16 = rtt.toNat ∧ t.rd (Reg.LNK_DELAY l) 15 0 = rtt.toNat / 2 ∧
      ((s.reg Reg.TBL_FORM).getLsbD 2 = false → s.seat.deal = none → s.seat.loading = none →
        s.rd Reg.TBL_FORM_STAT 7 2 = l.val →
        t.reg Reg.TBL_TIME = BitVec.ofNat 64
          ((tick.toNat * 96 + phase.toNat + rtt.toNat / 2 + 48 - s.seat.phase) / 96) ∧
        (t.reg Reg.TBL_FORM_STAT).getLsbD 1 = true) ∧
      ((s.reg Reg.TBL_FORM).getLsbD 2 = true → t.reg Reg.TBL_TIME = s.reg Reg.TBL_TIME) ∧
      Changes s t [Reg.LNK_DELAY l, Reg.TBL_TIME, Reg.TBL_FORM_STAT] [.links, .hubQueue])

/-! ### Host ports -/

namespace Sys2Proof.Claims

open Sys2Proof.Machine

/-- Registers that a host write changes by their access types alone, with the fields that are RW (R5). -/
def plainRegs (p : PCore) : List (Nat × List (Nat × Nat)) :=
  [(Reg.TBL_REPLAY_CFG, [(7, 0)]), (Reg.THM_CFG, [(15, 8), (0, 0)]), (Reg.PMU_CTL, [(1, 0)]), (Reg.CORE_START p, [(12, 0)])]

/-- A control access keeps R4: eight or four bytes, naturally aligned. -/
def ControlSize (a size : Nat) : Prop := (size = 8 ∨ size = 4) ∧ a % size = 0

/-- An access has been logged and has done nothing else (R339): its source and address, the count, HST_ACCESS. -/
def AccessLogged (s t : State) (src addr : Nat) : Prop :=
  fld (t.reg Reg.HST_ACCESS_LOG) 63 62 = src ∧ fld (t.reg Reg.HST_ACCESS_LOG) 61 0 = addr % 2 ^ 62 ∧
    t.rd Reg.HST_CMD_STAT 15 0 = min 65535 (s.rd Reg.HST_CMD_STAT 15 0 + 1) ∧ Logs s t 0x52 addr 0

/-- An access of the vault window keeps R319. -/
def WindowAccess (off : BitVec 38) (len : Nat) : Prop := len ∈ [8, 32, 64] ∧ off.toNat % len = 0

/-- Byte i of a decoded vault at a byte address. -/
def vaultByte (s : State) (p : PCore) (a : Nat) : Byte := (readBack (s.vget p (a / 32))).1.extractLsb' (8 * (a % 32)) 8

/-- The number that n bytes of a payload from byte o spell. -/
def inPayload (b : BitVec 2048) (o n : Nat) : Nat := (b.extractLsb' (8 * o) (8 * n)).toNat

/-- Frames on channel 0 that begin a record of a type with a tag and spell some bytes after its header (R331). -/
def RecordFrames (fs : List CxFrame) (rtype tag : Nat) (data : List Byte) : Prop :=
  fs ≠ [] ∧ (∀ f ∈ fs, f.ch = 0) ∧ fs.map (·.sor) = (List.range fs.length).map (fun i => i == 0) ∧
    leNat ((fs.flatMap (·.payload)).take 1) = rtype ∧ leNat (((fs.flatMap (·.payload)).drop 2).take 2) = tag ∧
    ((fs.flatMap (·.payload)).drop 32).take data.length = data

end Sys2Proof.Claims

/-- R3 to R5, R77, R15, R318, R319, R339, R414: the host's accesses. A control write of a register changes its RW bits in the
half it names, one into a hand-store window its bytes; one that R4 or R3 refuses is logged and does nothing. A
vault-window access is placed at once with no rubber running, waits for a host window in one, and reads zero and is logged
where its size or its map entry refuses it. A debug write does what a host write does, in the states that allow it. No host
access arrives while Turelink is down. -/
def Obligations.HostAccess : Prop :=
  (∀ (p : PCore) (s : State) (v : W64), s.tlUp = true → ∀ row ∈ plainRegs p, (∀ b ∈ s.added, b.reg ≠ row.1) →
    (∃ t, exec (.registerWrite (BitVec.ofNat 64 row.1) 8 v) s = .next t ∧ Changes s t [row.1] [] ∧
      ∀ i < 64, (t.reg row.1).getLsbD i = writtenBits (s.reg row.1) v row.2 i) ∧
    (∃ t, exec (.registerWrite (BitVec.ofNat 64 row.1) 4 v) s = .next t ∧ Changes s t [row.1] [] ∧
      ∀ i < 64, (t.reg row.1).getLsbD i = if i < 32 then writtenBits (s.reg row.1) v row.2 i else (s.reg row.1).getLsbD i) ∧
    (∃ t, exec (.registerWrite (BitVec.ofNat 64 (row.1 + 4)) 4 v) s = .next t ∧ Changes s t [row.1] [] ∧
      ∀ i < 64, (t.reg row.1).getLsbD i =
        if i < 32 then (s.reg row.1).getLsbD i else writtenBits (s.reg row.1) (v <<< 32) row.2 i)) ∧
  (∀ (a v : W64) (size : Nat) (s : State), s.tlUp = false → exec (.registerWrite a size v) s = .next s) ∧
  (∀ (a v : W64) (size : Nat) (s : State), s.tlUp = true →
    (¬ControlSize a.toNat size ∨ (handWindow a.toNat = none ∧ regRow (a.toNat / 8 * 8) = none)) →
    ∃ t, exec (.registerWrite a size v) s = .next t ∧ AccessLogged s t 0 a.toNat ∧
      Changes s t [Reg.HST_ACCESS_LOG, Reg.HST_CMD_STAT] [.hubQueue]) ∧
  (∀ (p : PCore) (o : Nat) (v : W64) (s : State), s.tlUp = true → o % 8 = 0 → o < 0x40000 →
    s.coreState p ∈ [CS_STOPPED, CS_FAULTED, CS_SPARE, CS_RETIRED] → IsOn s p →
    ∃ t, exec (.registerWrite (BitVec.ofNat 64 (handBase p + o)) 8 v) s = .next t ∧ RegsBut [] s t ∧ CoresBut [p] s t ∧
      PiecesBut [] s t ∧ t.core p = { s.core p with hand := (t.core p).hand } ∧
      (∀ i < 8, (t.core p).hand.byte (o + i) = v.extractLsb' (8 * i) 8) ∧
      ∀ a, (a < o ∨ o + 8 ≤ a) → (t.core p).hand.byte a = (s.core p).hand.byte a) ∧
  (∀ (off : BitVec 38) (len : Nat) (p : PCore) (s : State), s.tlUp = true → (s.core p).vault.noise = [] → WindowAccess off len → s.physOf (off.toNat / 2 ^ 30) = some p →
    (s.running = true → ∃ t, exec (.vaultWindowRead off len) s = .next t ∧
      t.host.accesses = s.host.accesses ++ [(off.toNat / 2 ^ 30, .read off.toNat len)] ∧ Changes s t moduleCounters [.host]) ∧
    (s.running = false → s.host.accesses = [] → ∃ t data ps, exec (.vaultWindowRead off len) s = .next t ∧
      t.sent = .readData off.toNat data ps :: s.sent ∧ data.length = len ∧
      (∀ i < len, data[i]? = some (vaultByte s p (off.toNat % 2 ^ 30 + i))) ∧ OnlyWords s t p [])) ∧
  (∀ (off : BitVec 38) (d : List Byte) (x : Bool) (p : PCore) (s : State), s.tlUp = true → (s.core p).vault.noise = [] →
    WindowAccess off d.length →
    s.physOf (off.toNat / 2 ^ 30) = some p →
    (s.running = true → ∃ t, exec (.vaultWindowWrite off d x) s = .next t ∧
      t.host.accesses = s.host.accesses ++ [(off.toNat / 2 ^ 30, .write off.toNat d x)] ∧ Changes s t moduleCounters [.host]) ∧
    (s.running = false → s.host.accesses = [] → ∃ t, exec (.vaultWindowWrite off d x) s = .next t ∧
      OnlyWords s t p ((List.range ((d.length + 31) / 32)).map fun i => off.toNat % 2 ^ 30 / 32 + i) ∧
      ∀ i < (d.length + 31) / 32, ∃ w, t.vget p (off.toNat % 2 ^ 30 / 32 + i) = encodeWord w (metaByte 0 false
          (x || (decide (d.length = 8) && (readBack (s.vget p (off.toNat % 2 ^ 30 / 32))).2))) ∧
        ∀ j < 32, w.extractLsb' (8 * j) 8 =
          if off.toNat % 2 ^ 30 ≤ off.toNat % 2 ^ 30 / 32 * 32 + 32 * i + j ∧
            off.toNat % 2 ^ 30 / 32 * 32 + 32 * i + j < off.toNat % 2 ^ 30 + d.length
          then d.getD (off.toNat % 2 ^ 30 / 32 * 32 + 32 * i + j - off.toNat % 2 ^ 30) 0
          else vaultByte s p (off.toNat % 2 ^ 30 / 32 * 32 + 32 * i + j))) ∧
  (∀ (off : BitVec 38) (len : Nat) (d : List Byte) (x : Bool) (s : State), s.tlUp = true →
    (¬WindowAccess off len ∨ s.physOf (off.toNat / 2 ^ 30) = none → ∃ t, exec (.vaultWindowRead off len) s = .next t ∧
      AccessLogged s t 1 off.toNat ∧ t.sent = .readData off.toNat (List.replicate (min len 64) 0) [] :: s.sent ∧
      CoresBut [] s t ∧ PiecesBut [.hubQueue, .sent, .notes] s t) ∧
    (¬WindowAccess off d.length ∨ s.physOf (off.toNat / 2 ^ 30) = none → ∃ t, exec (.vaultWindowWrite off d x) s = .next t ∧
      AccessLogged s t 1 off.toNat ∧ CoresBut [] s t ∧ PiecesBut [.hubQueue, .notes] s t)) ∧
  (∀ (a v : W64) (size : Nat) (s : State), (a.toNat < 0x1000000 ∨ 0x100000000 ≤ a.toNat) →
    (s.tblState ∈ [TS_EMPTY, TS_LOADED, TS_STOPPED] → s.tlUp = true →
      exec (.debugWrite none a size v) s = exec (.registerWrite a size v) s) ∧
    (∀ halt, s.tblState ∉ [TS_EMPTY, TS_LOADED, TS_STOPPED] → ∃ t, exec (.debugWrite halt a size v) s = .next t ∧
      t.rd Reg.SEC_DEBUG 47 32 = min 65535 (s.rd Reg.SEC_DEBUG 47 32 + 1) ∧ FieldsBut s t Reg.SEC_DEBUG [(47, 32)] ∧
      Changes s t [Reg.SEC_DEBUG] []))

/-- R316, R317, R320 to R324, R337: the submission engine takes a descriptor, counts it and judges it: a fresh generation is
remembered and its command obeyed, a stale one is dropped and counted, an unknown one completes with RANGE. Turelink uses
all lanes or a whole set of eight; its width is reported when it changes, held lines are dropped with the link and the
watched one is read again at its return; an engine that has waited for the ring says so. -/
def Obligations.SubmissionEngine : Prop :=
  (∀ (prod : BitVec 32) (x : Fetched) (s : State), (s.reg Reg.HST_SUBQ).getLsbD 5 = true → s.tlUp = true →
    s.rd Reg.HST_SUBQ_CONS 31 0 ≠ prod.toNat → s.host.held.length + s.host.opened.length + 1 ≤ s.cplRoom →
    let gen : BitVec 4 := x.desc.extractLsb' 8 4
    let id : BitVec 16 := x.desc.extractLsb' 16 16
    let c : CmdRef := ⟨x.desc.extractLsb' 0 8, gen, id, BitVec.ofNat 32 (s.rd Reg.HST_SUBQ_CONS 31 0 + 1)⟩
    let ahead := (gen.toNat + 16 - Tab.get 15 s.host.lastGen id.toNat) % 16
    (1 ≤ ahead → ahead ≤ 8 →
      (x.desc >>> 32 = 0 → x.desc.extractLsb' 12 4 = 0 → c.opcode = 0x30 → IdFree s id →
        ∃ t, exec (.subqWake prod [x]) s = .next t ∧ Answered t c 0 0 0 ∧
          t.rd Reg.HST_SUBQ_CONS 31 0 = (s.rd Reg.HST_SUBQ_CONS 31 0 + 1) % 2 ^ 32 ∧
          Tab.get 15 t.host.lastGen id.toNat = gen.toNat ∧
          Changes s t [Reg.HST_SUBQ_CONS, Reg.HST_CPLQ_PTR] [.host, .sent]) ∧
      (x.desc.extractLsb' 12 4 ≠ 0 ∨ x.desc.extractLsb' 32 32 ≠ 0 ∨
          c.opcode ∉ ([1, 2, 3, 4, 5, 6, 7, 0x10, 0x20, 0x30] : List Byte) →
        ∃ t, exec (.subqWake prod [x]) s = .next t ∧ Responded t c 3 0 0 [] ∧ t.host.opened = s.host.opened ∧
          Tab.get 15 t.host.lastGen id.toNat = gen.toNat ∧
          Changes s t [Reg.HST_SUBQ_CONS, Reg.HST_CPLQ_PTR] [.host, .sent])) ∧
    (¬(1 ≤ ahead ∧ ahead ≤ 8) → s.host.staleMs ≠ some s.ms → ∃ t, exec (.subqWake prod [x]) s = .next t ∧
      t.host.opened = s.host.opened ∧ t.host.held = s.host.held ∧ t.host.lastGen = s.host.lastGen ∧
      t.rd Reg.HST_SUBQ_CONS 31 0 = (s.rd Reg.HST_SUBQ_CONS 31 0 + 1) % 2 ^ 32 ∧
      t.rd Reg.HST_CMD_STAT 63 48 = min 65535 (s.rd Reg.HST_CMD_STAT 63 48 + 1) ∧
      Logs s t 0x51 (id.toNat * 2 ^ 32 + gen.toNat * 2 ^ 24 + c.opcode.toNat) 0)) ∧
  (∀ (prod : BitVec 32) (xs : List Fetched) (s : State), (s.reg Reg.HST_SUBQ).getLsbD 5 = false ∨ s.tlUp = false →
    exec (.subqWake prod xs) s = .next s) ∧
  (∀ (good : BitVec 16) (s : State), s.host.lanes ∈ ([0, 0xFF, 0xFF00, 0xFFFF] : List (BitVec 16)) →
    let new : BitVec 16 := if good = 0xFFFF then 0xFFFF else if good.extractLsb' 0 8 = 0xFF then 0xFF
      else if good.extractLsb' 8 8 = 0xFF then 0xFF00 else 0
    let count : BitVec 16 → Nat := fun x => if x = 0 then 0 else if x = 0xFFFF then 16 else 8
    (count new ≠ count s.host.lanes → (s.host.lanes = 0 → (s.reg Reg.HST_SUBQ).getLsbD 5 = false ∧ s.host.held = []) →
      ∃ t, exec (.tlLink good) s = .next t ∧ t.host.lanes = new ∧ t.host.opened = s.host.opened ∧
        t.host.held = s.host.held ∧ (new = 0 → t.host.lines = []) ∧ (new ≠ 0 → t.host.lines = s.host.lines) ∧
        Logs s t 0x53 (count new / 8 * 2 ^ 8 + count new) 0 ∧ Changes s t [] [.host, .hubQueue]) ∧
    (s.host.lanes = 0 → new ≠ 0 → (s.reg Reg.HST_SUBQ).getLsbD 5 = true → s.host.held = [] → s.host.todo = [] →
      ∃ t, exec (.tlLink good) s = .next t ∧ t.host.lanes = new ∧
        t.host.lines = [(s.reg Reg.HST_SUBQ_WATCH).toNat / 64 * 64] ∧
        t.sent = .hostFetch ((s.reg Reg.HST_SUBQ_WATCH).toNat / 64 * 64) 64 :: s.sent ∧
        Logs s t 0x53 (count new / 8 * 2 ^ 8 + count new) 0 ∧ Changes s t [] [.host, .sent, .hubQueue]) ∧
    (count new = count s.host.lanes → ∃ t, exec (.tlLink good) s = .next t ∧ t.host = { s.host with lanes := new } ∧
      Changes s t [] [.host])) ∧
  (∀ s : State, s.host.fullSince ≠ none → ∃ t, exec .hstCplqFull s = .next t ∧ t.host = { s.host with fullSince := none } ∧
    Logs s t 0x56 s.host.held.length 0 ∧ Changes s t [] [.host, .hubQueue])

namespace Sys2Proof.Claims

open Sys2Proof.Machine

/-- The port has nothing to tell: no acknowledgement owed, no credit freed. -/
def CrixQuiet (s : State) : Prop := s.crix.owes = false ∧ s.crix.freed[0] = 0 ∧ s.crix.freed[1] = 0

/-- No frame that waits to leave can: all are of channel 0, which has no credit. -/
def CrixStuck (s : State) : Prop := s.crix.credits[0] = 0 ∧ ∀ f ∈ s.crix.out, f.ch = 0

/-- The frames of channel 0 and of channel 1 that a frame can tell of at once: fields of 8 and of 16 bits (R329). -/
def tellable (ch : Fin 2) : Nat := if ch = 0 then 255 else 65535

end Sys2Proof.Claims

/-- R328 to R332, R335, R336: the Crix port. It comes up by announcing its buffers and goes down losing what it held;
INIT gives it credits; good frames acknowledge, return credits and are taken in order, one of a reserved TYPE is discarded,
bad ones are counted and asked for again with an IDLE frame; unacknowledged ones are sent again. A one-frame record is
collected; WRITE and READ move its words at once with no rubber running and wait for a host window in one, and the frames that
they free are told; a malformed one is refused, a malformed READ with zeros (the model's choice: log entry 75). EGRESS sends
the words of its rubber. -/
def Obligations.CrixPort : Prop :=
  (∀ s : State,
    (s.crixUp = false → ∃ t, exec (.cxLink true true) s = .next t ∧ t.crixUp = true ∧ t.rd Reg.HST_CX_STAT 1 1 = 1 ∧
      t.sent = .crixFrame (crixBytes 2 false false false 0 0 0 0
        (leBytes 4 (64 - s.crixHeld 0) ++ leBytes 4 (2048 - s.crixHeld 1))) :: s.sent ∧
      t.crix.replay = [] ∧ t.crix.out = [] ∧ Logs s t 0x54 1 0) ∧
    (s.crixUp = true → ∀ clk, ∃ t, exec (.cxLink false clk) s = .next t ∧ t.crixUp = false ∧ t.crix.replay = [] ∧
      t.crix.out = [] ∧ (∀ c : Fin 2, t.crix.parts[c.val] = []) ∧ t.crix.ready = s.crix.ready ∧ Logs s t 0x54 0 0)) ∧
  (∀ (b0 b1 : BitVec 32) (s : State), s.crixUp = true → s.crix.out = [] → CrixQuiet s →
    ∃ t, exec (.init b0 b1) s = .next t ∧ t.crix = { s.crix with credits := #v[b0.toNat, b1.toNat] } ∧ Changes s t [] [.crix]) ∧
  (∀ (h : CrixHead) (s : State), s.crixUp = true →
    (h.good = false → ∃ t c0 c1, exec (.crixIdleFrame h) s = .next t ∧ t.crix.nak = true ∧ t.crix.expect = s.crix.expect ∧
      t.crix.ready = s.crix.ready ∧ t.crix.replay = s.crix.replay ∧ t.crix.out = s.crix.out ∧ t.crix.credits = s.crix.credits ∧
      t.sent = .crixFrame (crixBytes 0 false true false 0 s.crix.expect c0 c1 []) :: s.sent ∧
      t.rd Reg.HST_CX_STAT 47 32 = min 65535 (s.rd Reg.HST_CX_STAT 47 32 + 1) ∧ Changes s t [Reg.HST_CX_STAT] [.crix, .sent]) ∧
    (h.good = true → h.rsv = true → exec (.crixIdleFrame h) s = .next s) ∧
    (h.good = true → h.rsv = false → h.nak = false → s.crix.out = [] → ∃ t, exec (.crixIdleFrame h) s = .next t ∧
      t.crix.credits = #v[s.crix.credits[0] + h.cred0.toNat, s.crix.credits[1] + h.cred1.toNat] ∧
      (∀ f rest, s.crix.replay = f :: rest → t.crix.replay =
        if (h.ackseq - f.1).toNat ≤ s.crix.replay.length then s.crix.replay.drop (h.ackseq - f.1).toNat else s.crix.replay) ∧
      Changes s t [] [.crix, .sent]) ∧
    (∀ (ch : Fin 2) (seq : BitVec 16) (b : BitVec 2048), h.good = true → h.rsv = false → h.nak = false → s.crix.out = [] →
      s.crix.parts[ch.val] = [] →
      (seq ≠ s.crix.expect → ∃ t c0 c1, exec (.crixDataFrame h ch true seq b) s = .next t ∧ t.crix.nak = true ∧
        t.crix.expect = s.crix.expect ∧ t.crix.ready = s.crix.ready ∧
        .crixFrame (crixBytes 0 false true false 0 s.crix.expect c0 c1 []) ∈ t.sent ∧ Changes s t [] [.crix, .sent]) ∧
      (seq = s.crix.expect →
        (ch = 0 → inPayload b 0 1 = 2 → ∃ t r, exec (.crixDataFrame h ch true seq b) s = .next t ∧
          t.crix.ready = s.crix.ready.set 0 (s.crix.ready[0] ++ [r]) ∧ t.crix.expect = s.crix.expect + 1 ∧ r.rtype = 2 ∧ r.ch = 0 ∧
          r.tag = inPayload b 2 2 ∧ r.lcore = inPayload b 4 1 ∧ r.addr = inPayload b 8 8 ∧ r.len = inPayload b 16 4 ∧
          r.words = [] ∧ (∃ c0 c1, .crixFrame (crixBytes 0 false false false 0 (s.crix.expect + 1) c0 c1 []) ∈ t.sent) ∧
          Changes s t moduleCounters [.crix, .sent]) ∧
        (ch = 1 → inPayload b 0 1 = 1 → inPayload b 1 1 < 2 → inPayload b 16 4 % 32 = 0 → inPayload b 16 4 ≤ 224 →
          ∃ t r, exec (.crixDataFrame h ch true seq b) s = .next t ∧
            t.crix.ready = s.crix.ready.set 1 (s.crix.ready[1] ++ [r]) ∧ t.crix.expect = s.crix.expect + 1 ∧ r.rtype = 1 ∧ r.ch = 1 ∧
            r.tag = inPayload b 2 2 ∧ r.lcore = inPayload b 4 1 ∧ r.addr = inPayload b 8 8 ∧ r.len = inPayload b 16 4 ∧
            r.words = (List.range (inPayload b 16 4 / 32)).map (fun i => (b.extractLsb' (256 * (i + 1)) 256, false)) ∧
            Changes s t moduleCounters [.crix, .sent])))) ∧
  (∀ s : State, s.crixUp = true → s.crix.replay ≠ [] → (∀ f ∈ s.crix.replay, f.2.2 < 8) →
    ∃ t, exec .crixResendTimeout s = .next t ∧ t.crix.replay = s.crix.replay.map (fun f => (f.1, f.2.1, f.2.2 + 1)) ∧
      t.rd Reg.HST_CX_STAT 63 48 = min 65535 (s.rd Reg.HST_CX_STAT 63 48 + s.crix.replay.length) ∧
      ∀ f ∈ s.crix.replay, ∃ c0 c1,
        .crixFrame (crixBytes 1 (f.2.1.ch % 2 == 1) s.crix.nak f.2.1.sor f.1 s.crix.expect c0 c1 f.2.1.payload) ∈ t.sent) ∧
  (∀ (s : State) (ch : Fin 2) (cmd : Instr) (r : CxRecord) (rest : List CxRecord), (ch = 1 ∧ cmd = .write ∨ ch = 0 ∧ cmd = .read) →
    s.crix.ready[ch.val] = r :: rest → r.ch = ch → s.recordWaits ch = false →
    (r.ok = false → CrixStuck s → ∃ t fs n, exec cmd s = .next t ∧ t.crix.ready = s.crix.ready.set ch.val rest ∧
      CoresBut [] s t ∧ t.crix.out = s.crix.out ++ fs ∧
      RecordFrames fs (if r.rtype = 2 then 0x81 else 0x82) (r.tag % 2 ^ 16) (if r.rtype = 2 then List.replicate n 0 else []) ∧
      n = if r.len % 32 = 0 ∧ 32 ≤ r.len ∧ r.len ≤ 65536 then r.len else 32) ∧
    (∀ p, r.ok = true → s.physOf r.lcore = some p →
      (s.running = true → ∃ t, exec cmd s = .next t ∧ t.crix.ready = s.crix.ready.set ch.val rest ∧
        t.host.accesses = s.host.accesses ++ [(r.lcore, .record r 0)] ∧ Changes s t [] [.crix, .host]) ∧
      (s.running = false → s.host.accesses = [] → (s.core p).vault.noise = [] → CrixStuck s → ∃ t, exec cmd s = .next t ∧
        t.crix.ready = s.crix.ready.set ch.val rest ∧ t.host.accesses = [] ∧
        (s.crixUp = false → t.crix.freed[ch.val] = s.crix.freed[ch.val] + r.frames) ∧
        (s.crixUp = true → t.crix.freed[ch.val] = s.crix.freed[ch.val] + r.frames - tellable ch ∧ ∃ c0 c1,
          .crixFrame (crixBytes 0 false s.crix.nak false 0 s.crix.expect c0 c1 []) ∈ t.sent ∧
          (if ch = 0 then c0 else c1) = min (tellable ch) (s.crix.freed[ch.val] + r.frames)) ∧
        (ch = 1 → OnlyWords s t p ((List.range (r.len / 32)).map fun i => r.addr / 32 + i) ∧
          ∀ i < r.len / 32, t.vget p (r.addr / 32 + i) =
            encodeWord (r.words.getD i (0, false)).1 (metaByte 0 false (r.words.getD i (0, false)).2)) ∧
        (ch = 0 → r.words = [] → OnlyWords s t p [] ∧ ∃ fs, t.crix.out = s.crix.out ++ fs ∧
          RecordFrames fs 0x81 (r.tag % 2 ^ 16) ((List.range r.len).map fun i => vaultByte s p (r.addr + i)))))) ∧
  (∀ (s : State) (e : Egress) (ws : List (BitVec 256 × Bool)), s.crixUp = true → s.crix.egress = [e] → e.words = some ws →
    CrixStuck s → (s.dealRuns = false ∨ e.rubber + 2 ≤ s.rubber) →
    ∃ t fs, exec .egress s = .next t ∧ t.crix.egress = [] ∧ t.crix.out = s.crix.out ++ fs ∧
      RecordFrames fs 0x83 0 (ws.flatMap fun w => leBytes 32 w.1.toNat) ∧ CoresBut [] s t)

/-! ### Power and heat -/

namespace Sys2Proof.Claims

open Sys2Proof.Machine

/-- The failed phases that PWR_PHASE of a tower marks. -/
def failedNow (s : State) (w : Tower) : Nat := (List.range 22).countP fun k => (s.reg (Reg.PWR_PHASE w)).getLsbD k

/-- The signal of a phase has been good for 100 ms (R344). -/
def PhaseGood (s : State) (w : Tower) (k : Nat) : Prop :=
  (s.towerPower w).good.getLsbD k = true ∧ (s.towerPower w).since.toList.getD k 0 + 10000000 ≤ s.now

/-- An event of R380 has not been raised by a tower in the last 10 ms. -/
def NotRecent (s : State) (w : Tower) (code : Nat) : Prop :=
  ∀ e ∈ (s.towerHeat w).raised, e.1 = code → e.2 + 1000000 ≤ s.now

/-- The energy of a window in 1/16 pJ (R350). -/
def windowEnergy (s : State) (w : Tower) : Nat :=
  ((List.finRange 12).map fun i => s.rd (Reg.PWR_WEIGHT i.val) 23 0 * (s.towerPower w).counts[i.val]).sum

/-- The leakage of a tower in 0.25 W: the entry for its hottest compute reading, the first below 40 C, one for each 5 K
(R350). -/
def windowStatic (s : State) (w : Tower) : Nat :=
  let x := s.rd (Reg.THM_TEMP w) 15 0
  s.rd (Reg.PWR_LEAK w (if x = 0x8000 then 0 else if signed 16 x < 640 then 0 else min 15 ((signed 16 x - 640) / 80).toNat)) 15 0

/-- The fraction of 64 that brings the power of a window within a budget (R351): the least n with n E no less than 64 times
the energy above the budget. -/
def CutsTo (e st eff n : Nat) : Prop :=
  let excess : Int := (e : Int) + 8000000 * ((st : Int) - (eff : Int))
  (excess ≤ 0 → n = 0) ∧ (0 < excess → e ≠ 0 → 64 * excess ≤ (n : Int) * e ∧ ((n : Int) - 1) * e < 64 * excess)

/-- The mean of the valid samples of layer k's slices, and of compute die d, rounded down. -/
def layerMean (s : State) (w : Tower) (k : Nat) : Option Int :=
  meanOf ((List.range 68).map fun j => (s.towerHeat w).last.getD (136 + 8 * j + k) none)

/-- A valid sample: a reading between -20 C and 150 C (R364). -/
def ValidSample (x : BitVec 16) : Prop := x ≠ 0x8000 ∧ -320 ≤ x.toInt ∧ x.toInt ≤ 2400

end Sys2Proof.Claims

/-- R342, R344, R346, R348, R349, R356: rails, phases and droop. A lost rail stops the deal and takes PWR_GO low; a failed
phase is marked and counted, the seventeenth holds the tower; a mark clears only where its phase has been good for 100 ms.
A droop starts a response of 96 cycles, an undervoltage asks for a replay, and a quiet monitor lets a clock change begin. -/
def Obligations.PowerFaults : Prop :=
  (∀ (lost : BitVec 5) (s : State), lost ≠ 0 →
    (lost.getLsbD 4 = true → ∃ t, exec (.pwrRailFault lost) s = .next t ∧ t.boot = { s.boot with pwrGo := false } ∧
      (∀ i < 64, (t.reg Reg.PWR_RAIL_STAT).getLsbD i = ((s.reg Reg.PWR_RAIL_STAT).getLsbD i && !lost.getLsbD i)) ∧
      Logs s t 0x44 lost.toNat 0 ∧ Changes s t [Reg.PWR_RAIL_STAT] [.boot, .hubQueue]) ∧
    (lost.getLsbD 4 = false → s.running = true → ∃ t n, exec (.pwrRailFault lost) s = .next t ∧ t.boot.pwrGo = false ∧
      (∀ i < 64, (t.reg Reg.PWR_RAIL_STAT).getLsbD i = ((s.reg Reg.PWR_RAIL_STAT).getLsbD i && !lost.getLsbD i)) ∧
      Logs s t 0x44 lost.toNat 0 ∧ n.kind = 2 ∧ n.code = 0x44 ∧ n.seatLvl = true ∧ Flooded s t n none ∧ Taken s t n)) ∧
  (∀ (w : Tower) (k : Fin 22) (s : State), (s.reg (Reg.PWR_PHASE w)).getLsbD k.val = false →
    (failedNow s w ≠ 16 → ∃ t, exec (.pwrPhaseFail w k) s = .next t ∧ (t.reg (Reg.PWR_PHASE w)).getLsbD k.val = true ∧
      t.rd (Reg.PWR_PHASE w) 44 40 = failedNow s w + 1 ∧ FieldsBut s t (Reg.PWR_PHASE w) [(k.val, k.val), (44, 40)] ∧
      (t.towerPower w).good.getLsbD k.val = false ∧
      Logs s t 0x40 ((failedNow s w + 1) * 2 ^ 32 + (if 17 ≤ failedNow s w + 1 then 2 ^ 28 else 0) + k.val * 2 ^ 16 + w.val) 0 ∧
      Changes s t [Reg.PWR_PHASE w] [.power, .hubQueue]) ∧
    (failedNow s w = 16 → s.dealRuns = false → ∃ t, exec (.pwrPhaseFail w k) s = .next t ∧
      (t.reg (Reg.PWR_PHASE w)).getLsbD k.val = true ∧ (t.reg Reg.PWR_RAIL_STAT).getLsbD (5 + w.val) = true ∧
      ∀ p : PCore, towerOf p = w → s.rd (Reg.CORE_PWR p) 5 4 = 0 → t.rd (Reg.CORE_PWR p) 1 0 = 1) ∧
    (failedNow s w = 16 → s.running = true → ∃ t n, exec (.pwrPhaseFail w k) s = .next t ∧
      (t.reg Reg.PWR_RAIL_STAT).getLsbD (5 + w.val) = true ∧ n.kind = 1 ∧ n.code = 0x40 ∧ Flooded s t n none ∧ Taken s t n)) ∧
  (∀ (w : Tower) (m : BitVec 22) (s : State), ∃ t, exec (.phaseFailClear w m) s = .next t ∧
    (∀ k < 22, (m.getLsbD k = true ∧ PhaseGood s w k → (t.reg (Reg.PWR_PHASE w)).getLsbD k = false) ∧
      (¬(m.getLsbD k = true ∧ PhaseGood s w k) →
        (t.reg (Reg.PWR_PHASE w)).getLsbD k = (s.reg (Reg.PWR_PHASE w)).getLsbD k)) ∧
    t.rd (Reg.PWR_PHASE w) 44 40 = failedNow t w ∧
    ((∃ k < 22, m.getLsbD k = true ∧ (s.reg (Reg.PWR_PHASE w)).getLsbD k = true ∧ ¬PhaseGood s w k) →
      AccessLogged s t 0 (Reg.PWR_PHASE w)) ∧
    Changes s t [Reg.PWR_PHASE w, Reg.HST_ACCESS_LOG, Reg.HST_CMD_STAT] [.hubQueue]) ∧
  (∀ (d : Die) (s : State),
    let w := towerOfDie d
    ∃ t, exec (.pwrDroop d) s = .next t ∧ (t.towerPower w).response.toList[d.val % 2]? = some 97 ∧
      (t.reg (Reg.PWR_DROOP w)).getLsbD 0 = false ∧
      ((s.towerPower w).response.toList[d.val % 2]? = some 0 → t.rd (Reg.PWR_DROOP w) 47 32 =
        min 65535 (s.rd (Reg.PWR_DROOP w) 47 32 + 1) ∧ ((s.towerPower w).droopAt = none →
          Logs s t 0x42 (min 65535 ((s.towerPower w).droops + 1) * 2 ^ 32 + d.val % 2 * 2 ^ 8 + w.val) 0)) ∧
      Changes s t [Reg.PWR_DROOP w] [.power, .hubQueue]) ∧
  (∀ (d : Die) (i : Fin 16) (s : State),
    let w := towerOfDie d
    (s.dealRuns = false → ∃ t, exec (.pwrUndervolt d i) s = .next t ∧
      t.rd (Reg.PWR_DROOP w) 63 48 = min 65535 (s.rd (Reg.PWR_DROOP w) 63 48 + 1) ∧
      (t.reg (Reg.PWR_DROOP w)).getLsbD 0 = false ∧ Logs s t 0x43 (d.val % 2 * 2 ^ 8 + i.val * 2 ^ 4 + w.val) 1 ∧
      Changes s t [Reg.PWR_DROOP w] [.hubQueue]) ∧
    (s.running = true → s.attempt = 0 → 1 ≤ s.seat.limit → ∃ t n, exec (.pwrUndervolt d i) s = .next t ∧
      Logs s t 0x43 (d.val % 2 * 2 ^ 8 + i.val * 2 ^ 4 + w.val) 1 ∧ n.kind = 0 ∧ n.code = 0x43 ∧ n.seatLvl = true ∧
      n.lcore = 0xFF ∧ n.bundle = 0 ∧ n.rubber = BitVec.ofNat 40 s.rubber ∧ Flooded s t n none ∧ Taken s t n)) ∧
  (∀ (w : Tower) (s : State), ∃ t, exec (.droopMonitorQuiet w) s = .next t ∧ (t.reg (Reg.PWR_DROOP w)).getLsbD 0 = true ∧
    FieldsBut s t (Reg.PWR_DROOP w) [(0, 0)] ∧ Changes s t [Reg.PWR_DROOP w] [.seat] ∧
    (s.seat.division = none → t.seat = s.seat) ∧
    ∀ x, s.seat.division = some x → ∃ b : BitVec 4, t.seat = { s.seat with division := some { x with begun := b } } ∧
      ∀ u : Tower, b.getLsbD u.val = (x.begun.getLsbD u.val || decide (u = w)))

/-- R341, R345, R350, R351, R353, R357, R358, R193: the governor and the cores' power. A window's estimate is its weighted
counts with the leakage; the budget in effect takes its value, WIN the fraction formed in the window before, and the
largest term is applied. The ante sets the rail. A core goes to RET or OFF only where nothing needs it, and loses in each
what R357 says. That VSET stays while VMIN reads zero, before bring-up, is the model's choice (log entry 77). -/
def Obligations.GovernorAndCorePower : Prop :=
  (∀ s : State, s.rd Reg.THM_CFG 0 0 = 0 → (∀ w, s.rd (Reg.PWR_PHASE w) 44 40 ≤ 2) →
    ∃ t, exec .governorWindow s = .next t ∧ CoresBut [] s t ∧ t.seat = s.seat ∧ ∀ w,
      let e := windowEnergy s w
      let st := windowStatic s w
      t.rd (Reg.PWR_EST w) 15 0 = min 65535 (e / 8000000 + st) ∧ t.rd (Reg.PWR_EST w) 47 32 = min 65535 (e / 8000000) ∧
      t.rd (Reg.PWR_EST w) 63 48 = min 65535 st ∧ (t.towerPower w).counts = Vector.replicate 12 0 ∧
      t.rd (Reg.PWR_BUDGET w) 47 32 = min 2880 (s.rd (Reg.PWR_BUDGET w) 15 0) ∧
      t.rd (Reg.PWR_BUBBLE w) 13 8 = (s.towerPower w).nextWin % 64 ∧
      (s.tblState ≠ TS_STEPPING → e ≠ 0 → ∃ n, CutsTo e st (min 2880 (s.rd (Reg.PWR_BUDGET w) 15 0)) n ∧
        (t.towerPower w).nextWin = min 56 n) ∧
      t.rd (Reg.PWR_BUBBLE w) 5 0 = min 56 (max (max (t.rd (Reg.PWR_BUBBLE w) 13 8) (t.rd (Reg.PWR_BUBBLE w) 21 16))
        (max (t.rd (Reg.PWR_BUBBLE w) 37 32) (t.rd (Reg.PWR_BUBBLE w) 29 24)))) ∧
  (∀ (w : Tower) (v : Byte) (s : State), ∃ t, exec (.anteWrite w v) s = .next t ∧ t.rd (Reg.PWR_VSET w) 23 16 = v.toNat ∧
    t.rd (Reg.PWR_VSET w) 15 0 = s.rd (Reg.PWR_VSET w) 15 0 ∧
    t.rd (Reg.PWR_VSET w) 47 32 = (if s.rd (Reg.PWR_VSET w) 15 0 = 0 then s.rd (Reg.PWR_VSET w) 47 32
      else (s.rd (Reg.PWR_VSET w) 15 0 + 5 * max 12 v.toNat) % 2 ^ 16) ∧
    Changes s t [Reg.PWR_VSET w] []) ∧
  (∀ (p : PCore) (s : State),
    (∃ t, exec (.corePwrOn p) s = .next t ∧ t.rd (Reg.CORE_PWR p) 1 0 = 0 ∧ t.rd (Reg.CORE_PWR p) 5 4 = s.rd (Reg.CORE_PWR p) 5 4 ∧
      (t.rd (Reg.CORE_PWR p) 8 8 = 0 ↔ s.rd (Reg.CORE_PWR p) 5 4 = 0 ∧ s.rd (Reg.CORE_PWR p) 8 8 = 0) ∧
      Changes s t [Reg.CORE_PWR p] []) ∧
    (∀ row ∈ [(Instr.corePwrRet p, 1), (.corePwrOff p, 2)],
      (s.coreState p ∈ [CS_STOPPED, CS_SPARE, CS_RETIRED] → (s.serves p = false ∨ s.dealNames (s.lcoreOf p) = false) →
        ∃ t, exec row.1 s = .next t ∧ t.rd (Reg.CORE_PWR p) 1 0 = row.2 ∧ t.rd (Reg.CORE_PWR p) 5 4 = s.rd (Reg.CORE_PWR p) 5 4 ∧
          (t.rd (Reg.CORE_PWR p) 8 8 = 0 ↔ s.rd (Reg.CORE_PWR p) 5 4 = row.2 ∧ s.rd (Reg.CORE_PWR p) 8 8 = 0) ∧
          Changes s t [Reg.CORE_PWR p] []) ∧
      (s.coreState p ∉ [CS_STOPPED, CS_SPARE, CS_RETIRED] ∨ s.serves p = true ∧ s.dealNames (s.lcoreOf p) = true → ∃ t, exec row.1 s = .next t ∧
        AccessLogged s t 0 (Reg.CORE_PWR p) ∧ Changes s t [Reg.HST_ACCESS_LOG, Reg.HST_CMD_STAT] [.hubQueue])) ∧
    (s.rd (Reg.CORE_PWR p) 8 8 = 1 → s.seat.loading = none →
      ∃ t, exec (.powerTransitionDone p) s = .next t ∧ t.rd (Reg.CORE_PWR p) 8 8 = 0 ∧
        t.rd (Reg.CORE_PWR p) 5 4 = min 2 (s.rd (Reg.CORE_PWR p) 1 0) ∧ CoresBut [p] s t ∧ PiecesBut [] s t ∧
        RegsBut [Reg.CORE_PWR p, Reg.VLT_TEST_CTL p, Reg.CORE_STAT p] s t ∧
        (s.rd (Reg.CORE_PWR p) 1 0 = 0 → (t.core p).regs = (s.core p).regs ∧ (t.core p).vault.selfRefresh = false ∧
          (s.rd (Reg.CORE_PWR p) 5 4 = 2 ∨ s.coreState p = CS_OFF → t.coreState p = s.placeState p) ∧
          (s.rd (Reg.CORE_PWR p) 5 4 ≠ 2 ∧ s.coreState p ≠ CS_OFF → t.coreState p = s.coreState p)) ∧
        (s.rd (Reg.CORE_PWR p) 1 0 ≠ 0 → (t.core p).regs = RegFile.zero ∧ (t.core p).arrays = Vector.replicate 6 Arr.reset ∧
          (t.core p).vault = { (s.core p).vault with selfRefresh := true } ∧ t.rd (Reg.VLT_TEST_CTL p) 2 2 = 0 ∧
          (s.rd (Reg.CORE_PWR p) 1 0 = 1 → t.coreState p = s.coreState p ∧ (t.core p).hand = (s.core p).hand ∧
            (t.core p).scratch = (s.core p).scratch) ∧
          (2 ≤ s.rd (Reg.CORE_PWR p) 1 0 → t.coreState p = CS_OFF ∧ (t.core p).hand = [] ∧ (t.core p).scratch = []))))

/-- R362 to R371: temperatures. Valid samples show in their registers, a core's temperature the hotter of its pair, the tower's
the hottest, the lid's the mean, and a tower with a reading of 115 C trips; a layer's estimate comes from its neighbours and its dissipation, by a filter that the
spec leaves free (log entry 25); a forecast is shown and its term applied until it is too old. -/
def Obligations.HeatReadings : Prop :=
  (∀ (xs : List (List (BitVec 16))) (s : State), xs.length = 4 → (∀ x ∈ xs, x.length = 692 ∧ ∀ v ∈ x, ValidSample v) →
    (∀ w, (s.towerHeat w).invalid = [] ∧ s.rd (Reg.THM_LAYER w) 7 0 = 0) →
    ∃ t, exec (.sensorSample xs) s = .next t ∧ ∀ (w : Tower) (j : Fin 68) (p : PCore), p.val = 68 * w.val + j.val →
      let v := fun (i : Nat) => (xs.getD w.val []).getD i 0
      fld (t.reg (Reg.THM_CORE p)) 47 32 = (v j.val).toNat ∧ fld (t.reg (Reg.THM_CORE p)) 31 16 = (v (68 + j.val)).toNat ∧
      signed 16 (fld (t.reg (Reg.THM_CORE p)) 15 0) = max (v j.val).toInt (v (68 + j.val)).toInt ∧
      (∀ k : Fin 4, t.rd (Reg.THM_SLICE p 0) (16 * k.val + 15) (16 * k.val) = (v (136 + 8 * j.val + k.val)).toNat ∧
        t.rd (Reg.THM_SLICE p 1) (16 * k.val + 15) (16 * k.val) = (v (140 + 8 * j.val + k.val)).toNat) ∧
      signed 16 (fld (t.reg (Reg.THM_CORE p)) 15 0) ≤ signed 16 (t.rd (Reg.THM_TEMP w) 15 0) ∧
      (∀ i < 544, (v (136 + i)).toInt ≤ signed 16 (t.rd (Reg.THM_TEMP w) 31 16)) ∧
      (∀ i < 8, (v (680 + i)).toInt ≤ signed 16 (t.rd (Reg.THM_TEMP w) 47 32)) ∧
      signed 16 (t.rd (Reg.THM_TEMP w) 63 48) = ((v 688).toInt + (v 689).toInt + (v 690).toInt + (v 691).toInt) / 4 ∧
      ((∃ i, i < 680 ∧ 1840 ≤ (v i).toInt) → (t.reg Reg.THM_TRIP).getLsbD 63 = true ∧
        ((s.reg Reg.THM_TRIP).getLsbD 63 = false → t.boot.clocks = false ∧ t.boot.thermtripN = false))) ∧
  (∀ s : State, ∃ t, exec .shadowEstimate s = .next t ∧ CoresBut [] s t ∧ ∀ w,
    (t.towerHeat w).layer = Vector.replicate 8 (0, 0) ∧
    ∀ k, 1 ≤ k → k ≤ 6 → ∀ u l, layerMean s w (k + 1) = some u → layerMean s w (k - 1) = some l →
      let n := (s.towerHeat w).layer.toList.getD k (0, 0)
      let e := s.rd (Reg.PWR_WEIGHT 7) 23 0 * n.1 + s.rd (Reg.PWR_WEIGHT 8) 23 0 * n.2
      t.rd (Reg.THM_SHADOW w (k / 4)) (16 * (k % 4) + 15) (16 * (k % 4)) = unsigned 16 (Config.shadowFilter
        (tempOf (s.rd (Reg.THM_SHADOW w (k / 4)) (16 * (k % 4) + 15) (16 * (k % 4))))
        (((u + l) * 50000000000 + Int.ofNat (s.rd Reg.THM_CFG 63 32 * (e + 400000000 * s.rd Reg.THM_CFG 31 16)))
          / 100000000000))) ∧
  (∀ (fs : List (BitVec 16 × BitVec 16 × BitVec 6)) (s : State), fs.length = 4 →
    (s.sec.restarting = true → exec (.forecastRun fs) s = .next s) ∧
    (s.sec.restarting = false → ∃ t, exec (.forecastRun fs) s = .next t ∧ CoresBut [] s t ∧ PiecesBut [.power, .heat] s t ∧
      ∀ w, ∀ f, fs[w.val]? = some f → t.rd (Reg.THM_FC w) 31 16 = f.1.toNat ∧ t.rd (Reg.THM_FC w) 47 32 = f.2.1.toNat ∧
        t.rd (Reg.THM_FC w) 15 8 = min 56 f.2.2.toNat ∧ (t.reg (Reg.THM_FC w)).getLsbD 0 = true ∧
        (t.towerPower w).terms[4] = min 56 f.2.2.toNat ∧ min 56 f.2.2.toNat ≤ t.rd (Reg.PWR_BUBBLE w) 29 24 ∧
        t.rd (Reg.PWR_BUBBLE w) 29 24 ≤ t.rd (Reg.PWR_BUBBLE w) 5 0 ∧ (t.towerHeat w).forecast = some s.now)) ∧
  (∀ (w : Tower) (s : State), (s.reg (Reg.THM_FC w)).getLsbD 0 = true → NotRecent s w 0x4D →
    ∃ t, exec (.thmForecast w) s = .next t ∧ (t.reg (Reg.THM_FC w)).getLsbD 0 = false ∧ (t.towerPower w).terms[4] = 0 ∧
      Logs s t 0x4D w.val 0 ∧
      Changes s t [Reg.THM_FC w, Reg.PWR_BUBBLE w, Reg.THM_STAT w] [.power, .heat, .hubQueue])

/-- R373 to R379: cooling and the trip. Coolant readings count while the inlet reads 40 C or less, and an invalid period is
reported once; each second a tower's resistance and its ratio to the base come from the averages of its lid, the inlet and its
power, and WARN and CUT follow the ratio. STOP clears only after a calm second. A trip records its first cause, stops the clocks
and pulls THERMTRIP_N. -/
def Obligations.CoolingAndTrip : Prop :=
  (∀ (i o f : BitVec 16) (s : State),
    let good := i ≠ 0x8000 ∧ i.toInt ≤ 640
    ∃ t, exec (.coolantWrite i o f) s = .next t ∧
      t.rd Reg.THM_COOLANT 15 0 = i.toNat ∧ t.rd Reg.THM_COOLANT 31 16 = o.toNat ∧ t.rd Reg.THM_COOLANT 47 32 = f.toNat ∧
      ((t.reg Reg.THM_COOLANT).getLsbD 63 = true ↔ good) ∧ (t.boot.coolantRaised = true ↔ ¬good) ∧
      (good ∨ s.boot.coolantRaised = true → Changes s t [Reg.THM_COOLANT] [.boot]) ∧
      (¬good → s.boot.coolantRaised = false → NotRecent s 0 0x49 →
        Logs s t 0x49 (4 * 2 ^ 8) 0 ∧ Changes s t [Reg.THM_COOLANT] [.boot, .heat, .hubQueue])) ∧
  (∀ s : State, ∃ t, exec .coolantStale s = .next t ∧ (t.reg Reg.THM_COOLANT).getLsbD 63 = false ∧
    t.boot.coolantRaised = true ∧ (s.boot.coolantRaised = true → Changes s t [Reg.THM_COOLANT] [.boot]) ∧
    (s.boot.coolantRaised = false → NotRecent s 0 0x49 →
      Logs s t 0x49 (4 * 2 ^ 8) 0 ∧ Changes s t [Reg.THM_COOLANT] [.boot, .heat, .hubQueue])) ∧
  (∀ s : State, ∃ t, exec .coolantSecond s = .next t ∧ CoresBut [] s t ∧ t.seat = s.seat ∧ ∀ w : Tower,
    let lid := s.rd (Reg.THM_TEMP w) 63 48
    let inlet : Int := if (s.reg Reg.THM_COOLANT).getLsbD 63 = true then signed 16 (s.rd Reg.THM_COOLANT 15 0) else 640
    let now := ((signed 16 lid, inlet, s.rd (Reg.PWR_EST w) 15 0) :: (s.towerHeat w).seconds).take 10
    let power := (now.map (·.2.2)).sum
    let base := s.rd (Reg.THM_COOL w) 31 16
    let rise := (((now.map (·.1)).sum - (now.map (·.2.1)).sum) * 25000).toNat
    let ratio := min 65535 (256 * rise / (power * base))
    (lid = 0x8000 → t.towerHeat w = s.towerHeat w ∧ t.reg (Reg.THM_COOL w) = s.reg (Reg.THM_COOL w)) ∧
    (lid ≠ 0x8000 → (t.towerHeat w).seconds = now ∧
      (power = 0 ∨ 4 * power < now.length * s.rd (Reg.PWR_BUDGET w) 47 32 → t.reg (Reg.THM_COOL w) = s.reg (Reg.THM_COOL w)) ∧
      (0 < power → now.length * s.rd (Reg.PWR_BUDGET w) 47 32 ≤ 4 * power → t.rd (Reg.THM_COOL w) 47 32 = min 65535 (rise / power) ∧
        (base = 0 → t.rd (Reg.THM_COOL w) 63 48 = 0) ∧
        (base ≠ 0 → t.rd (Reg.THM_COOL w) 63 48 = ratio ∧
          (295 ≤ ratio → (t.reg (Reg.THM_STAT w)).getLsbD 0 = true) ∧ (ratio < 282 → (t.reg (Reg.THM_STAT w)).getLsbD 0 = false) ∧
          (282 ≤ ratio → ratio < 295 → (t.reg (Reg.THM_STAT w)).getLsbD 0 = (s.reg (Reg.THM_STAT w)).getLsbD 0) ∧
          (333 ≤ ratio → (t.reg (Reg.THM_STAT w)).getLsbD 1 = true) ∧ (ratio < 320 → (t.reg (Reg.THM_STAT w)).getLsbD 1 = false) ∧
          (320 ≤ ratio → ratio < 333 → (t.reg (Reg.THM_STAT w)).getLsbD 1 = (s.reg (Reg.THM_STAT w)).getLsbD 1))))) ∧
  (∀ (w : Tower) (s : State),
    ((∀ u n, (s.towerHeat u).fast = some n → n + 100000000 ≤ s.now) → (s.guardedAt (Reg.THM_STAT w)).getLsbD 2 = false →
      ∃ t, exec (.thmStopClear w) s = .next t ∧ (t.reg (Reg.THM_STAT w)).getLsbD 2 = false ∧ (t.towerPower w).terms[0] = 0 ∧
      Changes s t [Reg.THM_STAT w, Reg.PWR_BUBBLE w] [.power]) ∧
    ((∀ u n, (s.towerHeat u).fast = some n → n + 100000000 ≤ s.now) → (s.guardedAt (Reg.THM_STAT w)).getLsbD 2 = true →
      exec (.thmStopClear w) s = .next s) ∧
    (∀ u n, (s.towerHeat u).fast = some n → s.now < n + 100000000 → ∃ t, exec (.thmStopClear w) s = .next t ∧
      AccessLogged s t 0 (Reg.THM_STAT w) ∧ Changes s t [Reg.HST_ACCESS_LOG, Reg.HST_CMD_STAT] [.hubQueue]) ∧
    ((s.towerPower w).warmSince ≠ none → NotRecent s w 0x49 → ∃ t, exec (.keepWarmShort w) s = .next t ∧
      (t.towerPower w).warmSince = some s.now ∧ Logs s t 0x49 (3 * 2 ^ 8 + w.val) 0 ∧
      Changes s t [] [.power, .heat, .hubQueue]) ∧
    ((s.towerPower w).warmSince = none → exec (.keepWarmShort w) s = .next s)) ∧
  (∀ (w : Tower) (analog : Bool) (die : Byte) (temp : BitVec 16) (s : State),
    ((s.reg Reg.THM_TRIP).getLsbD 63 = false → ∃ t, exec (.thermalTrip w analog die temp) s = .next t ∧
      (t.reg Reg.THM_TRIP).getLsbD 63 = true ∧ (t.reg Reg.THM_TRIP).getLsbD 62 = analog ∧
      fld (t.reg Reg.THM_TRIP) 31 24 = w.val ∧ fld (t.reg Reg.THM_TRIP) 23 16 = die.toNat ∧
      fld (t.reg Reg.THM_TRIP) 15 0 = temp.toNat ∧ t.boot = { s.boot with clocks := false, thermtripN := false } ∧
      (∃ arg, Logs s t 0x4F arg 0 ∧ BitVec.ofNat 64 arg = t.reg Reg.THM_TRIP) ∧
      Changes s t [Reg.THM_TRIP] [.boot, .hubQueue]) ∧
    ((s.reg Reg.THM_TRIP).getLsbD 63 = true → exec (.thermalTrip w analog die temp) s = .next s))

/-! ### Bring-up, resets, sparing, power-down -/

namespace Sys2Proof.Claims

open Sys2Proof.Machine

/-- The default core map (R99): logical index i of each die is served by its position i. -/
def DefaultMap (t : State) : Prop := ∀ c < 256, t.physOf c = if h : c / 32 * 34 + c % 32 < 272 then some ⟨c / 32 * 34 + c % 32, h⟩ else none

/-- Every entry of the core maps names a position of its die (R96): what every step keeps. -/
def MapSound (s : State) : Prop := ∀ c < 256, s.mapByte c % 64 < 34

/-- An image may start: its signature verifies and its SVN is not below the counter (R407). -/
def ImageOk (s : State) (x : Bool × BitVec 16) : Prop := x.1 = true ∧ s.sec.counter ≤ x.2.toNat

/-- An image has started in a slot: SEC_FW_STAT shows it (R407). -/
def Started (s t : State) (slot : Nat) (x : Bool × BitVec 16) : Prop :=
  t.rd Reg.SEC_FW_STAT 7 4 = 1 ∧ t.rd Reg.SEC_FW_STAT 1 0 = slot ∧ t.rd Reg.SEC_FW_STAT 47 32 = x.2.toNat ∧
    t.rd Reg.SEC_FW_STAT 31 16 = s.sec.counter % 2 ^ 16 ∧ t.sec.restarting = false

/-- The bits in which block k of the SRAM reading differs from the enrolled one (R404). -/
def flipped (flips : List (BitVec 2048)) (k : Nat) : Nat := (List.range 2048).countP fun i => (flips.getD k 0).getLsbD i

/-- No record of the ledger retires a core. -/
def NoneRetired (rs : List LedgerRec) : Prop := ∀ r ∈ rs, ∀ p n, r ≠ .retire p n

/-- No record of the ledger replaces a row. -/
def NoneReplaced (rs : List LedgerRec) : Prop := ∀ r ∈ rs, (∀ p i b w, r ≠ .memRepair p i b w) ∧ ∀ p i, r ≠ .rowSpare p i

/-- The newest bond-wear record of every tower marks an orderly power-off (R36, R387). -/
def OffMarked (rs : List LedgerRec) : Prop :=
  ∀ w : Tower, ∃ a b n, rs = a ++ .wear w n true :: b ∧ ∀ m o, LedgerRec.wear w m o ∉ b

/-- The largest count of bond cycles that records give a tower (R39). -/
def LargestWear (rs : List LedgerRec) (w : Tower) (m : Nat) : Prop :=
  (m = 0 ∨ ∃ o, LedgerRec.wear w m o ∈ rs) ∧ ∀ n o, LedgerRec.wear w n o ∈ rs → n ≤ m

/-- A core that a compute reset covers, or not (R388, R389): its registers, arrays and scratch as after reset. -/
def CoreCleared (t : State) (p : PCore) : Prop :=
  (t.core p).regs = RegFile.zero ∧ (t.core p).arrays = Vector.replicate 6 Arr.reset ∧ (t.core p).xq = [] ∧
    (t.core p).scratch = [] ∧ (t.core p).hand = [] ∧ (t.core p).events = [] ∧ (t.core p).snaps = []

end Sys2Proof.Claims

/-- R381, R404, R405, R407, R438, R440: power-up, its rails and its firmware. Power-on resets every register but what VAUX holds;
the ROM's keys come from the corrected SRAM reading, and a block beyond correction or a bad tag leaves no identity (ARG of the
event then as log entry 78); a good signal is recorded, and the last begins stage 2; one that is missing at the limit keeps the
module off; the boot ROM starts the preferred slot's image, else the other's, else recovery. -/
def Obligations.PowerUp : Prop :=
  (∀ (vaux : Bool) (flips : List (BitVec 2048)) (gcm : Bool) (s : State),
    (vaux = true ∨ (s.reg Reg.THM_TRIP).getLsbD 63 = false →
      ∃ t, exec (.powerOnReset vaux ⟨flips, gcm⟩) s = .next t ∧ t.pending = s.pending ∧ t.seat = Seat.reset ∧
        (∀ p, t.core p = Core.reset) ∧ (∀ l, t.link l = Link.reset) ∧ t.host = HostPort.reset ∧ t.crix = Crix.reset ∧
        (∀ a, t.reg a = if vaux = false ∧ a ∈ [Reg.THM_TRIP, Reg.SEC_DEBUG] then s.reg a else resetOf a) ∧
        t.boot.pwrGo = true ∧ t.sec.counter = s.sec.counter ∧
        t.boot.ledger.batches = s.boot.ledger.batches ∧ t.boot.ledger.factory = s.boot.ledger.factory ∧
        ((∀ k < 32, flipped flips k ≤ 60) →
          (∃ root, root = shake256 (enrolledReading.flatMap fun b => leBytes 256 b.toNat) 64 ∧ t.sec.root = some root ∧
            t.sec.sealKey = some (shake256 (root ++ asciiBytes "PH9-SEAL") 32) ∧
            t.sec.counterKey = some (shake256 (root ++ asciiBytes "PH9-CTR") 32)) ∧
          t.sec.identity = gcm ∧ (gcm = true → t.hubQueue = []) ∧
          (gcm = false → t.hubQueue.map (fun r => (r.code, r.arg)) = [(0x61, Config.pufArg)])) ∧
        (∀ k < 32, 60 < flipped flips k → (∀ j < k, flipped flips j ≤ 60) →
          t.sec.root = none ∧ t.sec.sealKey = none ∧ t.sec.counterKey = none ∧ t.sec.identity = false ∧
          t.hubQueue.map (fun r => (r.code, r.arg)) = [(0x61, BitVec.ofNat 64 k)])) ∧
    (vaux = false → (s.reg Reg.THM_TRIP).getLsbD 63 = true → exec (.powerOnReset vaux ⟨flips, gcm⟩) s = .next s)) ∧
  (∀ (rails : BitVec 5) (ph : List (BitVec 22)) (s : State), ph.length = 4 →
    ∃ t, exec (.railGoodAsserted rails ph) s = .next t ∧
      (∀ i < 5, (t.reg Reg.PWR_RAIL_STAT).getLsbD i = ((s.reg Reg.PWR_RAIL_STAT).getLsbD i || rails.getLsbD i)) ∧
      (s.stage = 1 → s.boot.pwrGo = true → s.rd Reg.PWR_RAIL_STAT 4 0 ||| rails.toNat = 31 →
        (∀ w, (s.towerPower w).good ||| ph.getD w.val 0 = BitVec.allOnes 22) → t.stage = 2 ∧ t.hubQueue = s.hubQueue) ∧
      (s.stage ≠ 1 ∨ s.boot.pwrGo = false → t.stage = s.stage ∧ Changes s t [Reg.PWR_RAIL_STAT] [.power] ∧
        ∀ w, (t.towerPower w).good = (s.towerPower w).good ||| ph.getD w.val 0)) ∧
  (∀ s : State, (s.stage = 1 → s.boot.pwrGo = true → ∃ t, exec .stageOneTimeout s = .next t ∧
      t.boot = { s.boot with pwrGo := false } ∧ Changes s t [] [.boot]) ∧
    (s.stage ≠ 1 ∨ s.boot.pwrGo = false → exec .stageOneTimeout s = .next s)) ∧
  (∀ (a b : Bool × BitVec 16) (s : State),
    let first := if s.sec.preferred = 0 then a else b
    let second := if s.sec.preferred = 0 then b else a
    let next := if s.stage = 2 then 3 else s.stage
    (s.stage = 2 ∨ s.sec.restarting = true →
      (ImageOk s first → ∃ t, exec (.firmwareVerify a b) s = .next t ∧ Started s t s.sec.preferred.val first ∧ t.stage = next ∧
        t.sec.root = none ∧ Changes s t [Reg.SEC_FW_STAT, Reg.TBL_BOOT_STAT] [.sec, .sent]) ∧
      (¬ImageOk s first → ImageOk s second → ∃ t, exec (.firmwareVerify a b) s = .next t ∧
        Started s t (1 - s.sec.preferred.val) second ∧ t.stage = next ∧ t.sec.root = none ∧
        Logs s t 0x60 ((if first.1 = true then 2 else 1) * 2 ^ 8 + s.sec.preferred.val) 0) ∧
      (¬ImageOk s first → ¬ImageOk s second → ∃ t, exec (.firmwareVerify a b) s = .next t ∧
        t.rd Reg.SEC_FW_STAT 7 4 = 3 ∧ t.stage = s.stage ∧ t.hubQueue.length = s.hubQueue.length + 2)) ∧
    (s.stage ≠ 2 → s.sec.restarting = false → exec (.firmwareVerify a b) s = .next s))

/-- R25, R31 to R34, R36 to R39, R381 to R384, R386, R358: the later stages of bring-up and the trims. The ledger is applied
without what follows a bad batch, and nothing goes on without its factory part; the bond-cycle counters are the largest recorded
with the power-offs that were not orderly (how those are known is log entry 76); connections, trims, self-test waves and the
memory test each end their stage; the module is READY with its spares in RET. A point that needs a code beyond its range is
flagged (that the flag is raised once: log entry 70), and a layer error of 25 ps fails its tower's clock. -/
def Obligations.BringUpStages : Prop :=
  (∀ (n : Nat) (s : State), s.stage = 3 →
    (∃ t, exec (.ledgerApply false n) s = .next t ∧ t.stage = 0xE ∧ Changes s t [Reg.TBL_BOOT_STAT] []) ∧
    (let l := s.boot.ledger
     let rs := l.factory ++ (l.batches.take n).flatten ++ l.queue
     ∃ t more, exec (.ledgerApply true n) s = .next t ∧ t.stage = 4 ∧ t.boot.ledger.applied = rs ++ more ∧
       (t.boot.wasOrderly = true ↔ s.boot.wasOrderly = true ∧ OffMarked rs) ∧ t.boot.offs = 0 ∧
       (∀ w m, LargestWear rs w m → m < 2 ^ 32 → t.rd (Reg.THM_BOND_CYCLES w) 63 32 = 30000 ∧
         (n ≥ l.batches.length ∨ s.boot.wasOrderly = false ∨ OffMarked rs →
           t.rd (Reg.THM_BOND_CYCLES w) 31 0 = min (2 ^ 32 - 1) (m + s.boot.offs + s.boot.early[w.val]))) ∧
       ((∀ r ∈ rs, ∀ w i c, r ≠ .trim w i c) → ∀ w i, i < 10 → t.rd (Reg.TBL_LAYER_TRIM w) (6 * i + 5) (6 * i) = 32) ∧
       (NoneReplaced rs → NoneRetired rs → DefaultMap t ∧ t.rd Reg.TBL_BOOT_STAT 55 48 = 0) ∧
       (NoneReplaced rs → s.boot.spared = [] → s.boot.offs = 0 → s.boot.early = Vector.replicate 4 0 →
         n ≥ l.batches.length ∨ s.boot.wasOrderly = false ∨ OffMarked rs → more = [] ∧
         (n < l.batches.length → Logs s t 0x63 (n * 2 ^ 32 + 1) 0) ∧ (l.batches.length ≤ n → t.hubQueue = s.hubQueue)))) ∧
  (∀ s : State, s.stage = 4 → s.boot.resetting = 0 →
    (∃ t, exec (.connectionTest [] [] []) s = .next t ∧ t.stage = 5 ∧ Changes s t [Reg.TBL_BOOT_STAT] []) ∧
    (∀ (p : PCore) (g : Fin 16) (i : Fin 20), s.repairByte p g.val % 64 = 0x1F → s.rd (Reg.VLT_VCH_STAT p) g.val g.val = 0 →
      ∃ t, exec (.connectionTest [(p, g, i)] [] []) s = .next t ∧ t.stage = 5 ∧ t.repairByte p g.val % 32 = i.val ∧
        t.rd (Reg.VLT_VCH_STAT p) g.val g.val = 1 ∧
        t.boot.ledger.queue = s.boot.ledger.queue ++ [.line p g.val i.val] ∧
        Changes s t [Reg.TBL_BOOT_STAT, Reg.VLT_VCH_SPARE p (g.val / 8), Reg.VLT_VCH_STAT p] [.boot])) ∧
  (∀ (codes : List (List Int)) (held : Bool) (s : State), s.stage = 5 → s.boot.resetting = 0 → codes.length = 4 →
    (∀ x ∈ codes, x.length = 10) →
    ∃ t, exec (.trimStage codes held) s = .next t ∧ t.stage = (if held = true then 6 else 0xE) ∧
      ∀ (w : Tower) (i : Nat), i < 10 →
        let want := (codes.getD w.val []).getD i 0
        t.rd (Reg.TBL_LAYER_TRIM w) (6 * i + 5) (6 * i) = (max 0 (min 63 want)).toNat ∧
        (t.reg (Reg.TBL_LAYER_TRIM_STAT w)).getLsbD i =
          ((s.reg (Reg.TBL_LAYER_TRIM_STAT w)).getLsbD i || decide (want < 0 ∨ 63 < want))) ∧
  (∀ (w : Fin 8) (s : State), s.stage = 6 → s.boot.resetting = 0 → s.boot.waves = w.val →
    ∃ t, exec (.selfTestWave w []) s = .next t ∧ t.boot.waves = w.val + 1 ∧ t.stage = (if w = 7 then 8 else 6) ∧
      ∀ p, (p.val % 8 = w.val → t.rd (Reg.CORE_PWR p) 5 4 = 0 ∧ (t.core p).vault.selfRefresh = false ∧
          t.coreState p = (if s.serves p = true then CS_STOPPED else if s.retiredCore p = true then CS_RETIRED else CS_SPARE)) ∧
        (p.val % 8 ≠ w.val → t.core p = s.core p ∧ t.coreState p = s.coreState p)) ∧
  (∀ s : State, s.stage = 8 → s.boot.resetting = 0 → ∃ t, exec (.memoryTest ⟨[], []⟩ []) s = .next t ∧ t.stage = 9 ∧
    t.rd Reg.TBL_BOOT_STAT 47 32 = 0 ∧ t.rd Reg.TBL_BOOT_STAT 5 4 = s.testKind ∧
    ∀ p, s.retiredCore p = false → (t.core p).vault.mem = [] ∧ (t.core p).vault.spare = []) ∧
  (∀ s : State, s.stage = 9 → ∃ t, exec .bringupReady s = .next t ∧ t.stage = 0xF ∧
    ∀ p, (s.coreState p = CS_SPARE → t.rd (Reg.CORE_PWR p) 5 4 = 1 ∧ (t.core p).vault.selfRefresh = true) ∧
      (s.coreState p ≠ CS_SPARE → t.core p = s.core p)) ∧
  (∀ (w : Tower) (want : List Int) (lost : Bool) (s : State), want.length = 10 →
    ∃ t, exec (.trimMeasure w ⟨want, lost⟩) s = .next t ∧
      (∀ u : Tower, t.boot.clockLost.getLsbD u.val = (s.boot.clockLost.getLsbD u.val || (lost && decide (u = w)))) ∧
      (s.rd (Reg.TBL_LAYER_TRIM_STAT w) 16 16 = 1 → Changes s t [] [.boot]) ∧
      (s.rd (Reg.TBL_LAYER_TRIM_STAT w) 16 16 = 0 → Changes s t [Reg.TBL_LAYER_TRIM w, Reg.TBL_LAYER_TRIM_STAT w] [.boot, .hubQueue] ∧
        ∀ i < 10, let c := s.rd (Reg.TBL_LAYER_TRIM w) (6 * i + 5) (6 * i)
          t.rd (Reg.TBL_LAYER_TRIM w) (6 * i + 5) (6 * i) =
            (if 0 < want.getD i 0 then min 63 (c + 1) else if want.getD i 0 < 0 then c - 1 else c) ∧
          (t.reg (Reg.TBL_LAYER_TRIM_STAT w)).getLsbD i = ((s.reg (Reg.TBL_LAYER_TRIM_STAT w)).getLsbD i ||
            decide (0 < want.getD i 0 ∧ c = 63 ∨ want.getD i 0 < 0 ∧ c = 0))))

/-- R388 to R390, R392, R393, R383, R7: resets and sparing. A compute reset empties the seat, clears the cores it covers and keeps
their vaults where no memory test is asked for; the cores that it does not cover stop and keep their memories. One asked for
again in the cycle in which it ends begins anew. A sparing retires the core, whose place in the map goes to a spare of its die,
and is reported when it is done. What TBL_STAT shows at the end of a reset is the model's choice (log entry 77). -/
def Obligations.ResetsAndSparing : Prop :=
  (∀ (s : State) (cmd : Instr) (m : BitVec 4) (i : Nat), s.host.accesses = [] → SeatSound s →
    ((cmd = .moduleComputeReset ∧ m = 15 ∧ i = 4) ∨ (∃ w : Tower, cmd = .towerComputeReset w ∧ m = 1#4 <<< w.val ∧ i = w.val)) →
    (s.reg Reg.TBL_RESET).getLsbD i = false →
    ∃ t, exec cmd s = .next t ∧ t.tblState = TS_EMPTY ∧ t.seat.deal = none ∧ (t.reg Reg.TBL_RESET).getLsbD i = true ∧
      t.boot.resetting = s.boot.resetting ||| m ∧ t.boot.waves = 0 ∧ ∀ p,
        (m.getLsbD (towerOf p).val = true → CoreCleared t p ∧ t.coreState p = CS_OFF ∧
          ∀ a, (t.core p).vault.mem.byte a =
            if s.rd Reg.TBL_RESET 7 6 % 3 = 0 then (s.core p).vault.mem.byte a else 0) ∧
        (m.getLsbD (towerOf p).val = false → (t.core p).vault.mem = (s.core p).vault.mem ∧
          (t.core p).scratch = (s.core p).scratch ∧ (t.core p).hand = (s.core p).hand ∧ (t.core p).regs = (s.core p).regs ∧
          (s.dealRuns = false → t.core p = s.core p ∧ t.coreState p = s.coreState p) ∧
          (s.dealRuns = true → p ∈ s.serving → t.coreState p ∉ [CS_RUNNING, CS_HELD] ∧ (t.core p).xq = []))) ∧
  (∀ s : State, s.boot.resetting ≠ 0 →
    ((s.guardedAt Reg.TBL_RESET).extractLsb' 0 5 = 0 → ∃ t, exec .computeResetDone s = .next t ∧ t.rd Reg.TBL_RESET 4 0 = 0 ∧
      FieldsBut s t Reg.TBL_RESET [(4, 0)] ∧ t.boot = { s.boot with resetting := 0, resetTest := 0 } ∧
      t.rd Reg.TBL_STAT 27 18 = s.seatId % 1024 ∧ t.rd Reg.TBL_STAT 39 34 = diameterOf (s.reg Reg.TBL_FORM) ∧
      FieldsBut s t Reg.TBL_STAT [(27, 18), (39, 34)] ∧ Changes s t [Reg.TBL_RESET, Reg.TBL_STAT] [.boot]) ∧
    ((s.guardedAt Reg.TBL_RESET).extractLsb' 0 5 ≠ 0 → SeatSound s → s.host.accesses = [] →
      ∃ t, exec .computeResetDone s = .next t ∧ t.boot.resetting ≠ 0 ∧ ∀ i < 5,
        (t.reg Reg.TBL_RESET).getLsbD i = ((s.reg Reg.TBL_RESET).getLsbD i && (s.guardedAt Reg.TBL_RESET).getLsbD i))) ∧
  (∀ (p : PCore) (reason : Byte) (copy : Bool) (s : State),
    (s.tblState ∉ [TS_EMPTY, TS_LOADED, TS_STOPPED, TS_HELD, TS_STEPPING] ∨ reason = 0 ∨ 5 < reason.toNat ∨
        s.boot.sparing ≠ none ∨ s.retiredCore p = true →
      ∃ t, exec (.spareGo (BitVec.ofNat 9 p.val) reason copy) s = .next t ∧ AccessLogged s t 0 Reg.TBL_SPARE_CTL ∧
        Changes s t [Reg.HST_ACCESS_LOG, Reg.HST_CMD_STAT] [.hubQueue]) ∧
    (s.tblState ∈ [TS_EMPTY, TS_LOADED, TS_STOPPED, TS_HELD, TS_STEPPING] → 1 ≤ reason.toNat → reason.toNat ≤ 5 →
        s.boot.sparing = none → s.retiredCore p = false → MapSound s →
      ∃ t x, exec (.spareGo (BitVec.ofNat 9 p.val) reason copy) s = .next t ∧
        (t.reg Reg.TBL_SPARE_CTL).getLsbD 63 = true ∧ t.rd Reg.TBL_SPARE_CTL 8 0 = p.val ∧
        t.rd Reg.TBL_SPARE_CTL 55 48 = reason.toNat ∧ t.boot.sparing = some x ∧ x.retired = p ∧ x.reason = reason.toNat ∧
        x.copy = copy ∧ t.boot.ledger.applied = s.boot.ledger.applied ++ [.retire p reason.toNat] ∧
        (∀ c < 256, t.physOf c ≠ some p) ∧ (∀ q, x.spare = some q → t.physOf (s.lcoreOf p) = some q ∧
          (s.lcoreOf p / 32 = (dieOf p).val → dieOf q = dieOf p)) ∧
        CoresBut [] s t ∧ t.seat = s.seat)) ∧
  (∀ (readable : Bool) (s : State) (x : Sparing), s.boot.sparing = some x →
    (x.copy = false ∨ x.spare = none → ∃ t, exec (.coreRetired readable) s = .next t ∧ t.boot.sparing = none ∧
      (t.reg Reg.TBL_SPARE_CTL).getLsbD 63 = false ∧ (t.reg Reg.TBL_SPARE_CTL).getLsbD 62 = true ∧
      (∃ fail new, Logs s t 0x1F (fail * 2 ^ 61 + x.reason * 2 ^ 40 + new * 2 ^ 16 + x.retired.val) 0 ∧
        new = s.rd Reg.TBL_SPARE_CTL 24 16 ∧ fail = t.rd Reg.TBL_SPARE_CTL 61 61) ∧
      (∀ q, x.spare = some q → t.coreState q =
        if s.tblState = TS_HELD ∨ s.tblState = TS_STEPPING then CS_HELD else CS_STOPPED)) ∧
    (∀ q d, x.copy = true → x.spare = some q → q ≠ x.retired → s.seat.deal = some d →
      ∃ t, exec (.coreRetired readable) s = .next t ∧ t.boot.sparing = none ∧
        (readable = false → (t.reg Reg.TBL_SPARE_CTL).getLsbD 61 = true) ∧
        (∀ a, (t.core q).scratch.byte a = (s.core x.retired).scratch.byte a ∧
          (t.core q).hand.byte a = (s.core x.retired).hand.byte a) ∧
        (t.core q).start = (s.core x.retired).start ∧ (t.core q).snaps = (s.core x.retired).snaps ∧
        t.reg (Reg.CORE_START q) = s.reg (Reg.CORE_START x.retired) ∧
        t.reg (Reg.CORE_SR_SEED0 q) = s.reg (Reg.CORE_SR_SEED0 x.retired)))

/-- R34, R36, R262, R355, R405, R415, R439, R440, R442: power-down, clocks and the ledger's batches. With PWR_GO or
THERMTRIP_N low the rails go: links, cores and the deal are lost, and an orderly power-off is marked. A tower's lock counts
towards the new clock, in effect with the fourth. Waiting records become a batch, or keep waiting where the write fails. -/
def Obligations.PowerDownAndClocks : Prop :=
  (∀ s : State,
    (s.boot.pwrGo = false ∨ s.boot.thermtripN = false → SeatSound s → s.host.accesses = [] →
      ∃ t, exec .powerDown s = .next t ∧ t.boot.pwrGo = false ∧ t.boot.clocks = false ∧ t.seat.deal = none ∧
        t.tblState = TS_EMPTY ∧ (∀ l, t.link l = Link.reset) ∧ (∀ p, CoreCleared t p ∧ (t.core p).vault.mem = []) ∧
        t.rd Reg.PWR_RAIL_STAT 4 1 = 0 ∧ (∀ w, (t.towerPower w).good = 0) ∧
        (s.boot.thermtripN = true → s.rd Reg.PWR_RAIL_STAT 4 0 = 31 → t.boot.orderly = true ∧
          ∀ w : Tower, ∃ n, .wear w n true ∈ t.boot.ledger.queue) ∧
        (s.boot.thermtripN = false → t.boot.orderly = s.boot.orderly)) ∧
    (s.boot.pwrGo = true → s.boot.thermtripN = true → exec .powerDown s = .next s)) ∧
  (∀ s : State, (∃ t, exec .resetNLow s = .next t ∧ t.boot = { s.boot with resetN := false, pwrGo := false } ∧
      Changes s t [] [.boot]) ∧
    (s.boot.pwrGo = true → ∃ t, exec .refclkLoss s = .next t ∧
      t.boot = { s.boot with refclk := false, clocks := false, pwrGo := false } ∧ Logs s t 0x44 0 0 ∧
      Changes s t [] [.boot, .hubQueue]) ∧
    (s.boot.pwrGo = false → exec .refclkLoss s = .next s)) ∧
  (∀ (w : Tower) (s : State),
    (∀ d : Division, s.seat.division = some d → d.begun.getLsbD w.val = true → d.clock ≤ 2 →
      ∃ t, exec (.towerClockLock w) s = .next t ∧ t.rd (Reg.TBL_LAYER_TRIM_STAT w) 16 16 = 0 ∧
        t.rd (Reg.PWR_VSET w) 15 0 = s.vminOf w d.clock % 2 ^ 16 ∧
        (∀ p, (t.core p).regs = (s.core p).regs ∧ (t.core p).scratch = (s.core p).scratch ∧
          (t.core p).vault.mem = (s.core p).vault.mem) ∧
        ((∀ u : Tower, u ≠ w → d.locked.getLsbD u.val = true) → t.seat.division = none ∧ t.clock = d.clock) ∧
        ((∃ u : Tower, u ≠ w ∧ d.locked.getLsbD u.val = false) → t.clock = s.clock ∧ CoresBut [] s t ∧ ∃ b : BitVec 4,
          t.seat.division = some { d with locked := b } ∧
          ∀ u : Tower, b.getLsbD u.val = (d.locked.getLsbD u.val || decide (u = w)))) ∧
    (s.seat.division = none ∨ (∃ d : Division, s.seat.division = some d ∧ d.begun.getLsbD w.val = false) →
      exec (.towerClockLock w) s = .next s)) ∧
  (∀ (ok : Bool) (s : State), let l := s.boot.ledger
    (l.queue = [] ∨ s.sec.identity = false ∨ s.sec.restarting = true → exec (.ledgerBatchWrite ok) s = .next s) ∧
    (l.queue ≠ [] → s.sec.identity = true → s.sec.restarting = false →
      (ok = true → ∃ t, exec (.ledgerBatchWrite ok) s = .next t ∧
        t.boot = { s.boot with ledger := { l with queue := [], batches := l.batches ++ [l.queue] } } ∧ Changes s t [] [.boot]) ∧
      (ok = false → ∃ t, exec (.ledgerBatchWrite ok) s = .next t ∧ t.boot = s.boot ∧
        Logs s t 0x63 (l.batches.length * 2 ^ 32 + 2) 0 ∧ Changes s t [] [.hubQueue])))

/-! ### The management processor, debug, the event log, performance monitoring -/

namespace Sys2Proof.Claims

open Sys2Proof.Machine

/-- The SPDM requests and what R410 and R411 answer; `sign` gives a signed answer where the identity is available. -/
def spdmTable (s : State) (smbus busy : Bool) (summary : Fin 3) (context : BitVec 64) (i : Fin 9) : List (Instr × SpdmAnswer) :=
  let sign := fun (a : SpdmAnswer) => if s.sec.identity then a else SpdmAnswer.error .unspecified
  let all := [1, 2, 3, 4, 5, 6, 7, 8]
  let sum := if summary = 0 then [] else Config.summaryHash (s.blocks (if summary = 1 then [1, 2, 3, 4, 7] else all))
  [(.getVersion smbus busy, .version [(1, 2), (1, 3)]),
   (.getCapabilities smbus busy, .capabilities true true 2 true 16 40960 40960),
   (.negotiateAlgorithms smbus busy true, .algorithms),
   (.negotiateAlgorithms smbus busy false, .error .invalidRequest),
   (.getDigests smbus busy, .digests Config.chainHash),
   (.getCertificate smbus busy 0, .certificate Config.certChain),
   (.getCertificate smbus busy 1, .error .invalidRequest),
   (.spdmChallenge smbus busy 1 summary context, .error .invalidRequest),
   (.spdmChallenge smbus busy 0 summary context,
     sign (.challengeAuth Config.chainHash sum (leBytes 8 context.toNat) (Config.spdmSignature s.sent.length))),
   (.getMeasurements smbus busy 0xFF true, sign (.measurements (s.blocks all) (Config.spdmSignature s.sent.length))),
   (.getMeasurements smbus busy (BitVec.ofNat 8 i.val) false, .measurements (s.blocks (if i = 0 then [] else [i.val])) []),
   (.getMeasurements smbus busy 0x09 false, .error .invalidRequest)]

/-- The processor restarts for a cause (R415). -/
def Restarts (s t : State) (cause : Nat) : Prop :=
  t.sec.restarting = true ∧ t.rd Reg.SEC_FW_STAT 7 4 = 2 ∧
    t.rd Reg.SEC_MGT_STAT 31 24 = (s.rd Reg.SEC_MGT_STAT 31 24 + 1) % 256 ∧ Logs s t 0x70 cause 0

/-- Unread entries of a ring of n with free-running counters. -/
def unread (w : W64) : Nat := (fld w 63 32 + 2 ^ 32 - fld w 31 0) % 2 ^ 32

/-- An armed action has been taken at its tick (R425, R426). -/
def ActionTaken (s t : State) (action : Nat) : Prop :=
  (t.reg Reg.PMU_ARM_CTL).getLsbD 4 = false ∧ (t.reg Reg.PMU_ARM_CTL).getLsbD 6 = true ∧ Logs s t 0x73 action 0 ∧
    t.now = max s.now (s.reg Reg.PMU_ARM_TICK).toNat

end Sys2Proof.Claims

/-- R407 to R409, R413, R415 to R417: firmware operations and the processor. STAGE verifies an image into the slot not running,
ACTIVATE prefers it and restarts, COMMIT raises the counter once the image has run for 60 s; each answers with its RSTATUS.
In recovery an image that verifies starts. A watchdog restart leaves an image that has not run for 60 s; sensors are
sampled and reported; a TAP instruction other than BYPASS and IDCODE leaves its mark. -/
def Obligations.Firmware : Prop :=
  (∀ (s : State) (r : MgmtReq) (rest : List MgmtReq), s.sec.queue = r :: rest → s.sec.restarting = false →
    (r.kind = .fwStage → ∀ x : Bool × BitVec 16,
      (ImageOk s x → ∃ t, exec (.fwStage (some x)) s = .next t ∧ Replied t r 2 1 0 [] ∧
        t.sec = { s.sec with queue := rest, staged := some (s.idleSlot, x.2.toNat) } ∧
        (s.idleSlot.val ≠ s.rd Reg.SEC_FW_STAT 1 0)) ∧
      (¬ImageOk s x → ∃ t, exec (.fwStage (some x)) s = .next t ∧ Replied t r 2 1 6 [] ∧
        t.sec = { s.sec with queue := rest } ∧
        Logs s t 0x60 ((if x.1 = true then 2 else 1) * 2 ^ 8 + s.idleSlot.val) 0)) ∧
    (r.kind = .fwActivate →
      (∀ slot svn, s.sec.staged = some (slot, svn) → ∃ t, exec .fwActivate s = .next t ∧ Replied t r 2 2 0 [] ∧
        t.sec.preferred = slot ∧ t.sec.staged = none ∧ t.sec.activated = true ∧ t.sec.queue = rest ∧ Restarts s t 2) ∧
      (s.sec.staged = none → ∃ t, exec .fwActivate s = .next t ∧ Replied t r 2 2 1 [] ∧ t.sec = { s.sec with queue := rest })) ∧
    (r.kind = .fwCommit →
      (s.sec.committable = true → ∃ t, exec .fwCommit s = .next t ∧ Replied t r 2 3 0 [] ∧
        t.sec.counter = max s.sec.counter (s.rd Reg.SEC_FW_STAT 47 32) ∧ t.sec.queue = rest ∧ t.rd Reg.SEC_FW_STAT 7 4 = 1) ∧
      (s.sec.committable = false → ∃ t, exec .fwCommit s = .next t ∧ Replied t r 2 3 1 [] ∧
        t.sec = { s.sec with queue := rest })) ∧
    (r.kind = .telemetry → ∃ t, exec .telemetrySnapshot s = .next t ∧
      Replied t r 3 0 0 (s.sec.sensors.flatMap fun w => leBytes 8 w.toNat) ∧ t.sec = { s.sec with queue := rest })) ∧
  (∀ (s : State) (x : Bool × BitVec 16),
    (s.rd Reg.SEC_FW_STAT 7 4 = 3 → ImageOk s x → ∃ t, exec (.recoveryGo x) s = .next t ∧
      Started s t s.sec.preferred.val x ∧ (t.reg Reg.SEC_RECOVERY_LEN).getLsbD 63 =
        ((s.reg Reg.SEC_RECOVERY_LEN).getLsbD 63 && (s.guardedAt Reg.SEC_RECOVERY_LEN).getLsbD 63)) ∧
    (s.rd Reg.SEC_FW_STAT 7 4 = 3 → ¬ImageOk s x → ∃ t, exec (.recoveryGo x) s = .next t ∧
      t.rd Reg.SEC_FW_STAT 7 4 = 3 ∧ Logs s t 0x60 ((if x.1 = true then 2 else 1) * 2 ^ 8 + 2) 0) ∧
    (s.rd Reg.SEC_FW_STAT 7 4 ≠ 3 → ∃ t, exec (.recoveryGo x) s = .next t ∧ AccessLogged s t 0 Reg.SEC_RECOVERY_LEN ∧
      Changes s t [Reg.HST_ACCESS_LOG, Reg.HST_CMD_STAT] [.hubQueue])) ∧
  (∀ s : State,
    (s.sec.activated = true → s.sec.restarting = false → s.rd Reg.SEC_FW_STAT 7 4 = 1 → ∃ t, exec .fwCommittable s = .next t ∧
      t.sec = { s.sec with committable := true } ∧ t.rd Reg.SEC_FW_STAT 7 4 = 4 ∧ Changes s t [Reg.SEC_FW_STAT] [.sec]) ∧
    (s.sec.activated = false ∨ s.sec.restarting = true ∨ s.rd Reg.SEC_FW_STAT 7 4 ≠ 1 → exec .fwCommittable s = .next s) ∧
    (∃ t, exec .mgtRestart s = .next t ∧ Restarts s t 1 ∧ t.sec.queue = s.sec.queue ∧
      (t.sec.preferred = s.sec.preferred ↔ ¬(s.sec.activated = true ∧ s.sec.committable = false)) ∧
      Changes s t [Reg.SEC_FW_STAT, Reg.SEC_MGT_STAT] [.sec, .hubQueue]) ∧
    (s.sec.restarting = false → ∃ t, exec (.pldmSample true) s = .next t ∧
      t.sec = { s.sec with sensors := s.readSensors } ∧ Changes s t [] [.sec]) ∧
    (∃ t, exec (.pldmSample false) s = .next t ∧ t.sec.sensors = s.sec.sensors ∧
      t.rd Reg.SEC_MGT_STAT 63 48 = min 65535 (s.rd Reg.SEC_MGT_STAT 63 48 + 1) ∧
      (s.sec.overloadAt = none → Logs s t 0x71 (min 65535 (s.rd Reg.SEC_MGT_STAT 63 48 + 1) * 2 ^ 16 +
        s.rd Reg.SEC_MGT_STAT 47 32) 0) ∧ Changes s t [Reg.SEC_MGT_STAT] [.sec, .hubQueue]) ∧
    (∀ op ∈ [TapOp.bypass, .idcode], ∃ t, exec (.tapInstruction op) s = .next t ∧ t.sec = { s.sec with tap := op } ∧
      Changes s t [] [.sec]) ∧
    (∀ op ∈ [TapOp.boundary, .other], ∃ t, exec (.tapInstruction op) s = .next t ∧ t.sec = { s.sec with tap := op } ∧
      (t.reg Reg.SEC_DEBUG).getLsbD 63 = true ∧
      t.rd Reg.SEC_DEBUG 31 0 = min (2 ^ 32 - 1) (s.rd Reg.SEC_DEBUG 31 0 + 1) ∧
      Logs s t 0x62 (min (2 ^ 32 - 1) (s.rd Reg.SEC_DEBUG 31 0 + 1)) 0 ∧ Changes s t [Reg.SEC_DEBUG] [.sec, .hubQueue]))

/-- R405, R410 to R412, R415, R416: the SPDM responder answers each request with what the spec gives it, an error where the
request is not one it takes, Busy while it answers another, and none while its processor restarts; over SMBus the answer is sent, else it is the reply to the
first queued SPDM request. Digests, hashes and signatures are free (log entry 26). -/
def Obligations.SpdmAnswers : Prop :=
  ∀ (s : State) (summary : Fin 3) (context : BitVec 64) (i : Fin 9),
   (s.sec.restarting = true → ∀ smbus busy, ∀ row ∈ spdmTable s smbus busy summary context i, exec row.1 s = .next s) ∧
   (s.sec.restarting = false →
    (∀ busy, ∀ row ∈ spdmTable s true busy summary context i, ∃ t, exec row.1 s = .next t ∧
      t.sent = .spdm (if busy = true then .error .busy else row.2) :: s.sent ∧ Changes s t [] [.sent]) ∧
    (∀ busy r rest, s.sec.queue = r :: rest → r.kind = .spdm → ∀ row ∈ spdmTable s false busy summary context i,
      ∃ t, exec row.1 s = .next t ∧ t.sec = { s.sec with queue := rest } ∧
        .spdm (if busy = true then .error .busy else row.2) ∈ t.sent ∧
        Replied t r 1 0 0 (Config.spdmBytes (if busy = true then .error .busy else row.2))))

/-- R418, R419, R425 to R430: the event log and performance monitoring. A record is written where PROD points and PROD
advances; CONS moves within what is unread; an armed action freezes, unfreezes or copies the counters at its tick; a tagged
instruction that completes leaves a sample record. -/
def Obligations.LogAndMonitor : Prop :=
  (∀ (s : State) (r : Record) (rest : List Record), s.hubQueue = r :: rest → unread (s.reg Reg.SEC_EVTLOG_PTR) < 4096 →
    ∃ t, exec .eventLogRecord s = .next t ∧ t.hubQueue = rest ∧
      (∀ w x, r.words[w]? = some x → t.reg (Reg.SEC_EVTLOG (s.rd Reg.SEC_EVTLOG_PTR 63 32) w) = x) ∧
      t.rd Reg.SEC_EVTLOG_PTR 63 32 = (s.rd Reg.SEC_EVTLOG_PTR 63 32 + 1) % 2 ^ 32 ∧
      t.rd Reg.SEC_EVTLOG_PTR 31 0 = s.rd Reg.SEC_EVTLOG_PTR 31 0 ∧ CoresBut [] s t ∧
      (r.code.toNat / 16 = 4 ∨ r.code.toNat / 16 = 6 → (s.sec.restarting = false → .pldmEvent r ∈ t.sent) ∧
        (s.sec.restarting = true → t.sec.alerts = s.sec.alerts ++ [r]))) ∧
  (∀ (s : State) (r : Record) (rest : List Record), s.hubQueue = r :: rest → 4096 ≤ unread (s.reg Reg.SEC_EVTLOG_PTR) →
    ∃ t, exec .eventLogRecord s = .next t ∧ t.hubQueue.take rest.length = rest ∧
      (∀ w x, r.words[w]? = some x → t.reg (Reg.SEC_EVTLOG (s.rd Reg.SEC_EVTLOG_PTR 63 32) w) = x) ∧
      t.rd Reg.SEC_EVTLOG_PTR 63 32 = (s.rd Reg.SEC_EVTLOG_PTR 63 32 + 1) % 2 ^ 32 ∧
      t.rd Reg.SEC_EVTLOG_PTR 31 0 = (s.rd Reg.SEC_EVTLOG_PTR 31 0 + 1) % 2 ^ 32 ∧
      t.rd Reg.SEC_EVTLOG_CTL 63 32 = min (2 ^ 32 - 1) (s.rd Reg.SEC_EVTLOG_CTL 63 32 + 1)) ∧
  (∀ s : State, s.hubQueue = [] → exec .eventLogRecord s = .next s) ∧
  (∀ (s : State) (v : BitVec 32),
    let behind := (s.rd Reg.SEC_EVTLOG_PTR 63 32 + 2 ^ 32 - v.toNat) % 2 ^ 32
    (behind ≤ 4096 → ∃ t, exec (.eventLogConsWrite v) s = .next t ∧
      t.rd Reg.SEC_EVTLOG_PTR 31 0 = (if s.guardedAt Reg.SEC_EVTLOG_PTR ≠ 0 ∧ unread (s.reg Reg.SEC_EVTLOG_PTR) < behind then
        s.rd Reg.SEC_EVTLOG_PTR 31 0 else v.toNat) ∧ FieldsBut s t Reg.SEC_EVTLOG_PTR [(31, 0)] ∧
      Changes s t [Reg.SEC_EVTLOG_PTR] []) ∧
    (4096 < behind → s.guardedAt Reg.SEC_EVTLOG_PTR = 0 → ∃ t, exec (.eventLogConsWrite v) s = .next t ∧
      AccessLogged s t 0 Reg.SEC_EVTLOG_PTR ∧ Changes s t [Reg.HST_ACCESS_LOG, Reg.HST_CMD_STAT] [.hubQueue])) ∧
  (∀ (s : State) (a : BitVec 2),
    let tick := (s.reg Reg.PMU_ARM_TICK).toNat
    (tick % 5 ≠ 0 ∨ (s.reg Reg.PMU_ARM_CTL).getLsbD 4 = true → ∃ t, exec (.pmuArm a) s = .next t ∧
      AccessLogged s t 0 Reg.PMU_ARM_CTL ∧ Changes s t [Reg.HST_ACCESS_LOG, Reg.HST_CMD_STAT] [.hubQueue]) ∧
    (tick % 5 = 0 → (s.reg Reg.PMU_ARM_CTL).getLsbD 4 = false → ∃ t, exec (.pmuArm a) s = .next t ∧
      t.rd Reg.PMU_ARM_CTL 1 0 = a.toNat ∧
      ((t.reg Reg.PMU_ARM_CTL).getLsbD 4 = true ↔ a ≠ 0 ∧ s.now < tick) ∧
      (a ≠ 0 → tick ≤ s.now → (t.reg Reg.PMU_ARM_CTL).getLsbD 7 = true ∧ Logs s t 0x73 (4 + a.toNat) 0) ∧
      Changes s t [Reg.PMU_ARM_CTL] [.hubQueue])) ∧
  (∀ s : State, ((s.reg Reg.PMU_ARM_CTL).getLsbD 4 = false →
    exec .pmuFreeze s = .next s ∧ exec .pmuUnfreeze s = .next s ∧ exec .pmuSnapshot s = .next s)) ∧
  (∀ s : State, (s.reg Reg.PMU_ARM_CTL).getLsbD 4 = true → (s.guardedAt Reg.PMU_ARM_CTL).getLsbD 4 = false →
    (∀ p, (s.core p).slotMask = none) →
    (s.rd Reg.PMU_ARM_CTL 1 0 = 1 → ∃ t, exec .pmuFreeze s = .next t ∧ ActionTaken s t 1 ∧
      (t.reg Reg.PMU_CTL).getLsbD 1 = true ∧ (t.reg Reg.PMU_CTL).getLsbD 0 = (s.reg Reg.PMU_CTL).getLsbD 0) ∧
    (s.rd Reg.PMU_ARM_CTL 1 0 = 3 → ∃ t, exec .pmuUnfreeze s = .next t ∧ ActionTaken s t 3 ∧
      (t.reg Reg.PMU_CTL).getLsbD 1 = false) ∧
    (s.rd Reg.PMU_ARM_CTL 1 0 = 2 → ∃ t, exec .pmuSnapshot s = .next t ∧ ActionTaken s t 2 ∧
      (∀ p i, i < 16 → t.reg (Reg.PMU_FIXED_SHADOW p i) = s.reg (Reg.PMU_FIXED p i)) ∧
      (∀ p k, k < 8 → t.reg (Reg.PMU_PROG_SHADOW p k) = s.reg (Reg.PMU_PROG p k) ∧
        t.reg (Reg.PMU_GCNT_SHADOW k) = s.reg (Reg.PMU_GCNT k)) ∧
      (∀ p, t.reg (Reg.PMU_OVF_SHADOW p) = s.reg (Reg.PMU_OVF p)) ∧ t.reg Reg.PMU_GOVF_SHADOW = s.reg Reg.PMU_GOVF ∧
      fld (t.reg Reg.PMU_SNAP_POS) 39 0 = s.rubber ∧ fld (t.reg Reg.PMU_SNAP_POS) 63 40 = s.seat.trick.toNat)) ∧
  (∀ (p : PCore) (s : State) (x : Sample) (lat : BitVec 24) (fl : BitVec 5), (s.core p).sample = some x → x.xq < 2 ^ 16 →
    (lat.toNat < s.rd (Reg.PMU_SAMPLE_CTL p) 47 24 → ∃ t, exec (.sampleComplete p lat fl) s = .next t ∧
      t.core p = { s.core p with sample := none } ∧
      t.rd (Reg.PMU_SAMPLE_STAT p) 31 16 = min 65535 (s.rd (Reg.PMU_SAMPLE_STAT p) 31 16 + 1) ∧
      t.rd (Reg.PMU_SAMPLE_STAT p) 0 0 = 0 ∧ RegsBut [Reg.PMU_SAMPLE_STAT p] s t ∧ CoresBut [p] s t ∧ PiecesBut [.notes] s t) ∧
    (s.rd (Reg.PMU_SAMPLE_CTL p) 47 24 ≤ lat.toNat → unread (s.reg (Reg.PMU_SAMPLE_PTR p)) < 256 →
      ∃ t, exec (.sampleComplete p lat fl) s = .next t ∧ t.core p = { s.core p with sample := none } ∧
        let at_ := s.rd (Reg.PMU_SAMPLE_PTR p) 63 32
        t.reg (Reg.PMU_SAMPLES p at_ 0) = x.tag ∧ t.reg (Reg.PMU_SAMPLES p at_ 2) = x.addr ∧
        fld (t.reg (Reg.PMU_SAMPLES p at_ 1)) 63 40 = x.tcycle.toNat ∧ fld (t.reg (Reg.PMU_SAMPLES p at_ 1)) 39 38 = x.slot.toNat ∧
        fld (t.reg (Reg.PMU_SAMPLES p at_ 1)) 37 30 = x.op.toNat ∧ fld (t.reg (Reg.PMU_SAMPLES p at_ 1)) 12 0 = x.bundle.toNat ∧
        fld (t.reg (Reg.PMU_SAMPLES p at_ 3)) 63 56 = x.attempt.toNat ∧ fld (t.reg (Reg.PMU_SAMPLES p at_ 3)) 55 32 = lat.toNat ∧
        fld (t.reg (Reg.PMU_SAMPLES p at_ 3)) 4 0 = fl.toNat ∧
        t.rd (Reg.PMU_SAMPLE_PTR p) 63 32 = (at_ + 1) % 2 ^ 32) ∧
    (s.rd (Reg.PMU_SAMPLE_CTL p) 47 24 ≤ lat.toNat → 256 ≤ unread (s.reg (Reg.PMU_SAMPLE_PTR p)) →
      ∃ t, exec (.sampleComplete p lat fl) s = .next t ∧ t.core p = { s.core p with sample := none } ∧
        t.rd (Reg.PMU_SAMPLE_STAT p) 63 48 = min 65535 (s.rd (Reg.PMU_SAMPLE_STAT p) 63 48 + 1) ∧
        (t.reg (Reg.PMU_OVF p)).getLsbD 24 = true)) ∧
  (∀ (p : PCore) (s : State) (lat : BitVec 24) (fl : BitVec 5), (s.core p).sample = none →
    exec (.sampleComplete p lat fl) s = .next s) ∧
  (∀ (p : PCore) (s : State) (v : BitVec 32),
    ((s.rd (Reg.PMU_SAMPLE_PTR p) 63 32 + 2 ^ 32 - v.toNat) % 2 ^ 32 ≤ 256 → ∃ t, exec (.sampleConsWrite p v) s = .next t ∧
      t.rd (Reg.PMU_SAMPLE_PTR p) 31 0 = v.toNat ∧ FieldsBut s t (Reg.PMU_SAMPLE_PTR p) [(31, 0)] ∧
      Changes s t [Reg.PMU_SAMPLE_PTR p] []) ∧
    (256 < (s.rd (Reg.PMU_SAMPLE_PTR p) 63 32 + 2 ^ 32 - v.toNat) % 2 ^ 32 → ∃ t, exec (.sampleConsWrite p v) s = .next t ∧
      AccessLogged s t 0 (Reg.PMU_SAMPLE_PTR p) ∧ Changes s t [Reg.HST_ACCESS_LOG, Reg.HST_CMD_STAT] [.hubQueue]))

/-! ### The whole machine -/

/-- A step with a command at the front of the queue is the command's effect, with the queue's rest. -/
def Obligations.StepRunsFrontCommand : Prop :=
  ∀ (c : Instr) (rest : List Instr) (s : State), step { s with pending := c :: rest } = exec c { s with pending := rest }

/-- What the spec's reset leaves (R8, R69, R272, R293, R341, R374, R379, R388): the registers of the spec's reset column, the
queue empty, every core OFF with nothing waiting, no deal, every link DOWN. -/
def Obligations.ResetValues : Prop :=
  State.reset.pending = [] ∧ State.reset.queueWf ∧ State.reset.wf ∧ SeatSound State.reset ∧ MapSound State.reset ∧
  State.reset.tblState = TS_EMPTY ∧ State.reset.rubber = 0 ∧ State.reset.now = 0 ∧ State.reset.stage = 1 ∧
  State.reset.reg Reg.TBL_REPLAY_CFG = 3 ∧ State.reset.reg Reg.TBL_FORM_STAT = 0xFFFC ∧
  State.reset.reg Reg.THM_CFG = 0x5000283C01 ∧ State.reset.reg Reg.HST_SUBQ = 6 ∧ State.reset.reg Reg.PMU_CTL = 1 ∧
  (∀ w : Tower, State.reset.reg (Reg.PWR_VSET w) = 0xC0000 ∧ State.reset.reg (Reg.PWR_DROOP w) = 1) ∧
  (∀ l : LinkIx, State.reset.reg (Reg.LNK_CTL l) = 0x400025 ∧ State.reset.linkState l = LS_DOWN ∧
    State.reset.reg (Reg.LNK_PARTNER l) = 0xFFFF0000) ∧
  (∀ p : PCore, State.reset.coreState p = CS_OFF ∧ State.reset.reg (Reg.CORE_PWR p) = 0x22 ∧
    State.reset.rd (Reg.CORE_ID p) 8 0 = p.val ∧ State.reset.rd (Reg.CORE_ID p) 14 9 = p.val % 34 ∧
    State.reset.rd (Reg.CORE_ID p) 39 32 = 0xB0 ∧
    (State.reset.core p).xq = [] ∧ (State.reset.core p).events = [])

/-- What no command and no cycle can break: the stores stay in canonical form, a control register never has an entry that
spells its reset value, writes that wait name sequence entries, a hold has a kind, the core maps name positions of their
dies, and the commands that wait stay well formed. -/
def Obligations.StepKeepsTheInvariant : Prop :=
  ∀ s t : State, s.wf → SeatSound s → MapSound s → s.queueWf → step s = .next t →
    t.wf ∧ SeatSound t ∧ MapSound t ∧ t.queueWf

/-- Every command completes, whatever the state, and touches the queue of no other: the module never stops, and a step takes
exactly the front of the queue. -/
def Obligations.EveryCommandCompletes : Prop :=
  (∀ (c : Instr) (s : State), ∃ t, exec c s = .next t ∧ t.pending = s.pending) ∧
  (∀ s : State, ∃ t, step s = .next t ∧ t.pending = s.pending.tail)

/-! ### Statements of several parts -/

/-- R104, R106, R71, R87, R103: what the scalar instructions write: those of two sources, those of an immediate, SEL, LI and LIH. -/
def Obligations.ScalarResult : Prop := Claims.ScalarTwoSourceResult ∧ Claims.ScalarImmediateResult ∧ Claims.SelectAndImmediateResult

/-- R108, R79, R86, R140: LDS and STS. -/
def Obligations.ScalarScratch : Prop := Claims.ScalarLoad ∧ Claims.ScalarStore

/-- R81, R109, R110, R5, R65: CRD, CTR and CWR. -/
def Obligations.ControlRegisters : Prop := Claims.ControlRead ∧ Claims.ControlWrite

/-- R113 to R115, R84: TIME, TBAR and REND, and the bundles that wait for their cycle. -/
def Obligations.Release : Prop := Claims.ReleaseInstructions ∧ Claims.ReleaseWaits

/-- VLD and VST (06). -/
def Obligations.VectorScratch : Prop := Claims.VectorLoad ∧ Claims.VectorStore

/-- VCVT, VQ, VDQ, VTPACK and VTUNPK (06). -/
def Obligations.Conversions : Prop := Claims.ConversionResult ∧ Claims.TernaryPacking

/-- The drain of an array: its snapshot, what a cell delivers, what it writes (07). -/
def Obligations.ArrayDrains : Prop := Claims.ArrayDrainSnapshot ∧ Claims.GridCellDelivers ∧ Claims.ArrayDrainWrites

/-- LSEND and CPUT, LRECV and CGET (R143 to R147). -/
def Obligations.Deliveries : Prop := Claims.DeliverySends ∧ Claims.DeliveryReceives

/-- R88, R89, R103: a memory instruction under a guard that forbids it, or is poisoned. -/
def Obligations.GuardedMemory : Prop := Claims.GuardForbids ∧ Claims.PoisonedGuardSinks

/-- R72, R85, R114, R247: an illegal bundle and a missed deadline. -/
def Obligations.Revokes : Prop := Claims.IllegalBundle ∧ Claims.DeadlineRevokes

/-- R279 to R283, R286, R294, R304: frames on links: their layout, what an arriving one does, and what is sent. -/
def Obligations.LinkFrames : Prop := Claims.LinkFramesTaken ∧ Claims.FrameLayout

/-- R173, R174, R176, R177: blocks read over the vault channel, and writes that it reports failed. -/
def Obligations.VaultChannel : Prop := Claims.VaultReads ∧ Claims.ReturnStatusUndoes
end

