-- ==== Sys2Proof/Laws/Tab.lean ====
section
/-! SUPPORT. Laws of sparse tables and of byte memory: what is read after a write, and that every write keeps the canonical
form. -/

namespace Sys2Proof.Machine

variable {α : Type}

/-! ### Reading -/

theorem Tab.get_drop_same (d : α) (t : Tab α) (i : Nat) : Tab.get d (t.drop i) i = d := by
  induction t with
  | nil => rfl
  | cons p t ih =>
    obtain ⟨k, v⟩ := p
    by_cases h : k = i
    · simpa [Tab.drop, h] using ih
    · have h' : i ≠ k := fun e => h e.symm
      simpa [Tab.drop, h, Tab.get, h'] using ih

theorem Tab.get_drop_other (d : α) (t : Tab α) {i j : Nat} (h : j ≠ i) : Tab.get d (t.drop i) j = Tab.get d t j := by
  induction t with
  | nil => rfl
  | cons p t ih =>
    obtain ⟨k, v⟩ := p
    by_cases hk : k = i
    · have : j ≠ k := hk ▸ h
      simpa [Tab.drop, hk, Tab.get, this, h] using ih
    · by_cases hj : j = k
      · simp [Tab.drop, hk, Tab.get, hj]
      · simpa [Tab.drop, hk, Tab.get, hj] using ih

theorem Tab.get_place_same (d : α) (t : Tab α) (i : Nat) (x : α) (h : ∀ p ∈ t, p.1 ≠ i) :
    Tab.get d (t.place i x) i = x := by
  induction t with
  | nil => simp [Tab.place, Tab.get]
  | cons p t ih =>
    obtain ⟨k, v⟩ := p
    have hk : i ≠ k := fun e => h (k, v) (by simp) e.symm
    by_cases hi : i < k
    · simp [Tab.place, hi, Tab.get]
    · simpa [Tab.place, hi, Tab.get, hk] using ih fun q hq => h q (by simp [hq])

theorem Tab.get_place_other (d : α) (t : Tab α) {i j : Nat} (x : α) (h : j ≠ i) :
    Tab.get d (t.place i x) j = Tab.get d t j := by
  induction t with
  | nil => simp [Tab.place, Tab.get, h]
  | cons p t ih =>
    obtain ⟨k, v⟩ := p
    by_cases hi : i < k
    · simp [Tab.place, hi, Tab.get, h]
    · by_cases hj : j = k
      · simp [Tab.place, hi, Tab.get, hj]
      · simpa [Tab.place, hi, Tab.get, hj] using ih

theorem Tab.drop_keys (t : Tab α) (i : Nat) : ∀ p ∈ t.drop i, p.1 ≠ i := by
  intro p hp
  simpa [Tab.drop] using (List.mem_filter.mp hp).2

/-- A key that has been written reads the value written. -/
@[simp] theorem Tab.get_put_same [DecidableEq α] (d : α) (t : Tab α) (i : Nat) (x : α) :
    Tab.get d (t.put d i x) i = x := by
  unfold Tab.put
  split
  · rename_i h; rw [h, Tab.get_drop_same]
  · exact Tab.get_place_same d _ i x (Tab.drop_keys t i)

/-- Another key reads as before, whatever its own default is. -/
theorem Tab.get_put_other [DecidableEq α] (d e : α) (t : Tab α) {i j : Nat} (x : α) (h : j ≠ i) :
    Tab.get e (t.put d i x) j = Tab.get e t j := by
  unfold Tab.put
  split
  · exact Tab.get_drop_other e t h
  · rw [Tab.get_place_other e _ x h, Tab.get_drop_other e t h]

/-! ### The canonical form -/

theorem Tab.wfFrom_mono [DecidableEq α] (d : Nat → α) {lo hi : Nat} (t : Tab α) (h : lo ≤ hi)
    (w : Tab.wfFrom d hi t = true) : Tab.wfFrom d lo t = true := by
  cases t with
  | nil => rfl
  | cons p t =>
    obtain ⟨k, v⟩ := p
    simp only [Tab.wfFrom, Bool.and_eq_true, decide_eq_true_eq] at w ⊢
    exact ⟨by omega, w.2⟩

/-- Leaving entries out keeps the form. -/
theorem Tab.wfFrom_filter [DecidableEq α] (d : Nat → α) (f : Nat × α → Bool) (t : Tab α) :
    ∀ lo, Tab.wfFrom d lo t = true → Tab.wfFrom d lo (t.filter f) = true := by
  induction t with
  | nil => intro lo _; rfl
  | cons p t ih =>
    obtain ⟨k, v⟩ := p
    intro lo w
    simp only [Tab.wfFrom, Bool.and_eq_true, decide_eq_true_eq] at w
    by_cases h : f (k, v) = true
    · simp only [List.filter_cons, h, if_true, Tab.wfFrom, Bool.and_eq_true, decide_eq_true_eq]
      exact ⟨w.1, w.2.1, ih _ w.2.2⟩
    · simp only [List.filter_cons, h]
      exact Tab.wfFrom_mono d _ (by omega) (ih _ w.2.2)

theorem Tab.wfFrom_place [DecidableEq α] (d : Nat → α) (i : Nat) (x : α) (hx : x ≠ d i) (t : Tab α) :
    ∀ lo, lo ≤ i → (∀ p ∈ t, p.1 ≠ i) → Tab.wfFrom d lo t = true → Tab.wfFrom d lo (t.place i x) = true := by
  induction t with
  | nil => intro lo h _ _; simp [Tab.place, Tab.wfFrom, h, hx]
  | cons p t ih =>
    obtain ⟨k, v⟩ := p
    intro lo h hk w
    simp only [Tab.wfFrom, Bool.and_eq_true, decide_eq_true_eq] at w
    have hki : k ≠ i := hk (k, v) (by simp)
    by_cases hi : i < k
    · simp only [Tab.place, hi, if_true, Tab.wfFrom, Bool.and_eq_true, decide_eq_true_eq]
      exact ⟨h, hx, by omega, w.2⟩
    · simp only [Tab.place, hi, if_false, Tab.wfFrom, Bool.and_eq_true, decide_eq_true_eq]
      exact ⟨w.1, w.2.1, ih _ (by omega) (fun q hq => hk q (by simp [hq])) w.2.2⟩

/-- A write keeps the canonical form. -/
theorem Tab.wfBy_put [DecidableEq α] (d : Nat → α) (t : Tab α) (i : Nat) (x : α) (w : Tab.wfBy d t = true) :
    Tab.wfBy d (t.put (d i) i x) = true := by
  unfold Tab.put Tab.wfBy at *
  split
  · exact Tab.wfFrom_filter d _ t 0 w
  · rename_i h
    exact Tab.wfFrom_place d i x h _ 0 (Nat.zero_le _) (Tab.drop_keys t i) (Tab.wfFrom_filter d _ t 0 w)

/-- A write keeps the canonical form of a table with one default. -/
theorem Tab.wf_put [DecidableEq α] (d : α) (t : Tab α) (i : Nat) (x : α) (w : Tab.wf d t = true) :
    Tab.wf d (t.put d i x) = true := Tab.wfBy_put (fun _ => d) t i x w

theorem Tab.wf_filter [DecidableEq α] (d : α) (f : Nat × α → Bool) (t : Tab α) (w : Tab.wf d t = true) :
    Tab.wf d (t.filter f) = true := Tab.wfFrom_filter _ f t 0 w

/-! ### Byte memory -/

theorem Tab.get_append (d : α) (a b : Tab α) (i : Nat) :
    Tab.get d (a ++ b) i = if i ∈ a.map (·.1) then Tab.get d a i else Tab.get d b i := by
  induction a with
  | nil => simp
  | cons p a ih =>
    obtain ⟨k, v⟩ := p
    by_cases h : i = k
    · simp [Tab.get, h]
    · simp only [List.cons_append, Tab.get, h, if_false, ih, List.map_cons, List.mem_cons, false_or]

theorem Tab.get_filter (d : α) (f : Nat → Bool) (t : Tab α) (g : Nat × α → Bool) (hg : ∀ p, g p = f p.1) (i : Nat) :
    Tab.get d (t.filter g) i = if f i then Tab.get d t i else d := by
  induction t with
  | nil => simp [Tab.get]
  | cons p t ih =>
    obtain ⟨k, v⟩ := p
    by_cases hk : f k = true
    · by_cases h : i = k
      · simp [hg, hk, Tab.get, h]
      · simp [hg, hk, Tab.get, h, ih]
    · by_cases h : i = k
      · subst h; simp [hg, hk, ih]
      · simp [hg, hk, Tab.get, h, ih]

theorem Tab.get_below (d : α) (t : Tab α) (n i : Nat) :
    Tab.get d (t.filter fun c => decide (c.1 < n)) i = if i < n then Tab.get d t i else d := by
  rw [Tab.get_filter d (fun k => decide (k < n)) t _ (fun _ => rfl)]; simp

theorem Tab.get_from (d : α) (t : Tab α) (n i : Nat) :
    Tab.get d (t.filter fun c => decide (n ≤ c.1)) i = if n ≤ i then Tab.get d t i else d := by
  rw [Tab.get_filter d (fun k => decide (n ≤ k)) t _ (fun _ => rfl)]; simp

theorem Tab.get_absent (d : α) (t : Tab α) (i : Nat) (h : i ∉ t.map (·.1)) : Tab.get d t i = d := by
  induction t with
  | nil => rfl
  | cons p t ih =>
    obtain ⟨k, v⟩ := p
    simp only [List.map_cons, List.mem_cons, not_or] at h
    simp [Tab.get, h.1, ih h.2]

theorem Memory.cells_range (bs : List Byte) : ∀ a, ∀ c ∈ Memory.cells a bs, a ≤ c.1 ∧ c.1 < a + bs.length := by
  induction bs with
  | nil => intro a c hc; simp [Memory.cells] at hc
  | cons b bs ih =>
    intro a c hc
    unfold Memory.cells at hc
    split at hc
    · have := ih (a + 1) c hc
      simp only [List.length_cons]; omega
    · rcases List.mem_cons.mp hc with h | h
      · subst h; simp
      · have := ih (a + 1) c h
        simp only [List.length_cons]; omega

theorem Memory.get_cells (bs : List Byte) : ∀ a i, a ≤ i → i < a + bs.length →
    Tab.get 0 (Memory.cells a bs) i = bs.getD (i - a) 0 := by
  induction bs with
  | nil => intro a i h h'; simp at h'; omega
  | cons b bs ih =>
    intro a i h h'
    simp only [List.length_cons] at h'
    by_cases hi : i = a
    · subst hi
      unfold Memory.cells
      split
      · rename_i hb
        rw [Tab.get_absent]
        · simp [hb]
        · intro hm
          obtain ⟨c, hc, e⟩ := List.mem_map.mp hm
          have := Memory.cells_range bs (i + 1) c hc
          omega
      · simp [Tab.get]
    · have e : i - a = (i - (a + 1)) + 1 := by omega
      unfold Memory.cells
      split
      · rw [ih (a + 1) i (by omega) (by omega), e]; simp
      · rw [Tab.get, if_neg hi, ih (a + 1) i (by omega) (by omega), e]; simp

/-- A byte read after a store: the byte stored inside the range, the old byte outside it. -/
theorem Memory.byte_store (m : Memory) (a : Nat) (bs : List Byte) (i : Nat) :
    (m.store a bs).byte i = if a ≤ i ∧ i < a + bs.length then bs.getD (i - a) 0 else m.byte i := by
  unfold Memory.store Memory.byte
  rw [Tab.get_append, Tab.get_append]
  by_cases hlo : i < a
  · have hc : ¬ (a ≤ i ∧ i < a + bs.length) := by omega
    have hcells : i ∉ (Memory.cells a bs).map (·.1) := by
      intro hm; obtain ⟨c, hc', e⟩ := List.mem_map.mp hm
      have := Memory.cells_range bs a c hc'; omega
    rw [if_neg hc, if_neg hcells, Tab.get_below, Tab.get_from]
    simp only [hlo, if_true]
    by_cases hm : i ∈ (m.filter (fun c => decide (c.1 < a))).map (·.1)
    · rw [if_pos hm]
    · rw [if_neg hm]
      have : ¬ a + bs.length ≤ i := by omega
      have hz : Tab.get 0 m i = 0 := by
        apply Tab.get_absent
        intro h; apply hm
        obtain ⟨c, hc', e⟩ := List.mem_map.mp h
        exact List.mem_map.mpr ⟨c, List.mem_filter.mpr ⟨hc', by simp [e, hlo]⟩, e⟩
      rw [if_neg this]; exact hz.symm
  · have hm : i ∉ (m.filter (fun c => decide (c.1 < a))).map (·.1) := by
      intro h; obtain ⟨c, hc', e⟩ := List.mem_map.mp h
      have := (List.mem_filter.mp hc').2
      simp [e] at this; omega
    rw [if_neg hm]
    by_cases hhi : i < a + bs.length
    · have hc : a ≤ i ∧ i < a + bs.length := by omega
      rw [if_pos hc]
      by_cases hcells : i ∈ (Memory.cells a bs).map (·.1)
      · rw [if_pos hcells, Memory.get_cells bs a i hc.1 hc.2]
      · rw [if_neg hcells, Tab.get_from, if_neg (by omega)]
        rw [← Memory.get_cells bs a i hc.1 hc.2, Tab.get_absent 0 _ i hcells]
    · have hc : ¬ (a ≤ i ∧ i < a + bs.length) := by omega
      have hcells : i ∉ (Memory.cells a bs).map (·.1) := by
        intro hm; obtain ⟨c, hc', e⟩ := List.mem_map.mp hm
        have := Memory.cells_range bs a c hc'; omega
      rw [if_neg hc, if_neg hcells, Tab.get_from, if_pos (by omega)]

theorem Memory.wfFrom_cells (bs : List Byte) : ∀ a lo, lo ≤ a → Tab.wfFrom (fun _ => (0 : Byte)) lo (Memory.cells a bs) = true := by
  induction bs with
  | nil => intro a lo _; rfl
  | cons b bs ih =>
    intro a lo h
    unfold Memory.cells
    split
    · exact ih (a + 1) lo (by omega)
    · rename_i hb
      simp only [Tab.wfFrom, Bool.and_eq_true, decide_eq_true_eq]
      exact ⟨h, hb, ih (a + 1) (a + 1) (Nat.le_refl _)⟩

theorem Tab.wfFrom_append [DecidableEq α] (d : Nat → α) (a b : Tab α) (mid : Nat) : ∀ lo, lo ≤ mid →
    Tab.wfFrom d lo a = true → (∀ p ∈ a, p.1 < mid) → Tab.wfFrom d mid b = true → Tab.wfFrom d lo (a ++ b) = true := by
  induction a with
  | nil => intro lo h _ _ wb; exact Tab.wfFrom_mono d b h wb
  | cons p a ih =>
    obtain ⟨k, v⟩ := p
    intro lo h wa hk wb
    simp only [Tab.wfFrom, Bool.and_eq_true, decide_eq_true_eq, List.cons_append] at wa ⊢
    have hkm : k < mid := hk (k, v) (by simp)
    exact ⟨wa.1, wa.2.1, ih _ hkm wa.2.2 (fun q hq => hk q (by simp [hq])) wb⟩

theorem Tab.wfFrom_ge [DecidableEq α] (d : Nat → α) (n : Nat) (t : Tab α) : ∀ lo, Tab.wfFrom d lo t = true →
    Tab.wfFrom d n (t.filter fun c => decide (n ≤ c.1)) = true := by
  induction t with
  | nil => intro lo _; rfl
  | cons p t ih =>
    obtain ⟨k, v⟩ := p
    intro lo w
    simp only [Tab.wfFrom, Bool.and_eq_true, decide_eq_true_eq] at w
    by_cases h : n ≤ k
    · simp only [List.filter_cons, h, decide_true, if_true, Tab.wfFrom, Bool.and_eq_true, decide_eq_true_eq]
      exact ⟨trivial, w.2.1, Tab.wfFrom_filter d _ t _ w.2.2⟩
    · simp only [List.filter_cons, h, decide_false]
      exact ih _ w.2.2

/-- A store keeps the canonical form. -/
theorem Memory.wf_store (m : Memory) (a : Nat) (bs : List Byte) (w : m.wf = true) : (m.store a bs).wf = true := by
  unfold Memory.wf Tab.wf Tab.wfBy Memory.store at *
  refine Tab.wfFrom_append _ _ _ a 0 (Nat.zero_le _) (Tab.wfFrom_filter _ _ m 0 w) ?_ ?_
  · intro p hp
    simpa using (List.mem_filter.mp hp).2
  · refine Tab.wfFrom_append _ _ _ (a + bs.length) a (by omega) (Memory.wfFrom_cells bs a a (Nat.le_refl _)) ?_ ?_
    · intro p hp; exact (Memory.cells_range bs a p hp).2
    · exact Tab.wfFrom_ge _ _ m 0 w

/-- A store of a number keeps the canonical form. -/
theorem Memory.wf_storeNum (m : Memory) (a n x : Nat) (w : m.wf = true) : (m.storeNum a n x).wf = true :=
  Memory.wf_store m a _ w

@[simp] theorem leBytes_length (n : Nat) : ∀ x, (leBytes n x).length = n := by
  induction n with
  | zero => intro x; rfl
  | succ n ih => intro x; simp [leBytes, ih]

end Sys2Proof.Machine
end

