-- ==== Sys2Proof/Laws/State.lean ====
section
/-! SUPPORT. One lemma per field per update of the state, and what each lookup reads after each update. -/

namespace Sys2Proof.Machine

variable (s : State)

/-! `setReg` changes `regs` alone. -/

@[simp] theorem State.setReg_pending (a : Nat) (v : W64) : (s.setReg a v).pending = s.pending := rfl
@[simp] theorem State.setReg_cores (a : Nat) (v : W64) : (s.setReg a v).cores = s.cores := rfl
@[simp] theorem State.setReg_seat (a : Nat) (v : W64) : (s.setReg a v).seat = s.seat := rfl
@[simp] theorem State.setReg_engines (a : Nat) (v : W64) : (s.setReg a v).engines = s.engines := rfl
@[simp] theorem State.setReg_links (a : Nat) (v : W64) : (s.setReg a v).links = s.links := rfl
@[simp] theorem State.setReg_host (a : Nat) (v : W64) : (s.setReg a v).host = s.host := rfl
@[simp] theorem State.setReg_crix (a : Nat) (v : W64) : (s.setReg a v).crix = s.crix := rfl
@[simp] theorem State.setReg_power (a : Nat) (v : W64) : (s.setReg a v).power = s.power := rfl
@[simp] theorem State.setReg_heat (a : Nat) (v : W64) : (s.setReg a v).heat = s.heat := rfl
@[simp] theorem State.setReg_boot (a : Nat) (v : W64) : (s.setReg a v).boot = s.boot := rfl
@[simp] theorem State.setReg_sec (a : Nat) (v : W64) : (s.setReg a v).sec = s.sec := rfl
@[simp] theorem State.setReg_hubQueue (a : Nat) (v : W64) : (s.setReg a v).hubQueue = s.hubQueue := rfl
@[simp] theorem State.setReg_sent (a : Nat) (v : W64) : (s.setReg a v).sent = s.sent := rfl
@[simp] theorem State.setReg_guarded (a : Nat) (v : W64) : (s.setReg a v).guarded = s.guarded := rfl
@[simp] theorem State.setReg_added (a : Nat) (v : W64) : (s.setReg a v).added = s.added := rfl
@[simp] theorem State.setReg_draws (a : Nat) (v : W64) : (s.setReg a v).draws = s.draws := rfl

/-! `wr` changes `regs` alone. -/

@[simp] theorem State.wr_pending (a hi lo v : Nat) : (s.wr a hi lo v).pending = s.pending := State.setReg_pending _ _ _
@[simp] theorem State.wr_cores (a hi lo v : Nat) : (s.wr a hi lo v).cores = s.cores := State.setReg_cores _ _ _
@[simp] theorem State.wr_seat (a hi lo v : Nat) : (s.wr a hi lo v).seat = s.seat := State.setReg_seat _ _ _
@[simp] theorem State.wr_engines (a hi lo v : Nat) : (s.wr a hi lo v).engines = s.engines := State.setReg_engines _ _ _
@[simp] theorem State.wr_links (a hi lo v : Nat) : (s.wr a hi lo v).links = s.links := State.setReg_links _ _ _
@[simp] theorem State.wr_host (a hi lo v : Nat) : (s.wr a hi lo v).host = s.host := State.setReg_host _ _ _
@[simp] theorem State.wr_crix (a hi lo v : Nat) : (s.wr a hi lo v).crix = s.crix := State.setReg_crix _ _ _
@[simp] theorem State.wr_power (a hi lo v : Nat) : (s.wr a hi lo v).power = s.power := State.setReg_power _ _ _
@[simp] theorem State.wr_heat (a hi lo v : Nat) : (s.wr a hi lo v).heat = s.heat := State.setReg_heat _ _ _
@[simp] theorem State.wr_boot (a hi lo v : Nat) : (s.wr a hi lo v).boot = s.boot := State.setReg_boot _ _ _
@[simp] theorem State.wr_sec (a hi lo v : Nat) : (s.wr a hi lo v).sec = s.sec := State.setReg_sec _ _ _
@[simp] theorem State.wr_hubQueue (a hi lo v : Nat) : (s.wr a hi lo v).hubQueue = s.hubQueue := State.setReg_hubQueue _ _ _
@[simp] theorem State.wr_sent (a hi lo v : Nat) : (s.wr a hi lo v).sent = s.sent := State.setReg_sent _ _ _
@[simp] theorem State.wr_guarded (a hi lo v : Nat) : (s.wr a hi lo v).guarded = s.guarded := State.setReg_guarded _ _ _
@[simp] theorem State.wr_added (a hi lo v : Nat) : (s.wr a hi lo v).added = s.added := State.setReg_added _ _ _
@[simp] theorem State.wr_draws (a hi lo v : Nat) : (s.wr a hi lo v).draws = s.draws := State.setReg_draws _ _ _

/-! `protect` changes `guarded` alone. -/

@[simp] theorem State.protect_pending (a : Nat) (m : W64) : (s.protect a m).pending = s.pending := rfl
@[simp] theorem State.protect_regs (a : Nat) (m : W64) : (s.protect a m).regs = s.regs := rfl
@[simp] theorem State.protect_cores (a : Nat) (m : W64) : (s.protect a m).cores = s.cores := rfl
@[simp] theorem State.protect_seat (a : Nat) (m : W64) : (s.protect a m).seat = s.seat := rfl
@[simp] theorem State.protect_engines (a : Nat) (m : W64) : (s.protect a m).engines = s.engines := rfl
@[simp] theorem State.protect_links (a : Nat) (m : W64) : (s.protect a m).links = s.links := rfl
@[simp] theorem State.protect_host (a : Nat) (m : W64) : (s.protect a m).host = s.host := rfl
@[simp] theorem State.protect_crix (a : Nat) (m : W64) : (s.protect a m).crix = s.crix := rfl
@[simp] theorem State.protect_power (a : Nat) (m : W64) : (s.protect a m).power = s.power := rfl
@[simp] theorem State.protect_heat (a : Nat) (m : W64) : (s.protect a m).heat = s.heat := rfl
@[simp] theorem State.protect_boot (a : Nat) (m : W64) : (s.protect a m).boot = s.boot := rfl
@[simp] theorem State.protect_sec (a : Nat) (m : W64) : (s.protect a m).sec = s.sec := rfl
@[simp] theorem State.protect_hubQueue (a : Nat) (m : W64) : (s.protect a m).hubQueue = s.hubQueue := rfl
@[simp] theorem State.protect_sent (a : Nat) (m : W64) : (s.protect a m).sent = s.sent := rfl
@[simp] theorem State.protect_added (a : Nat) (m : W64) : (s.protect a m).added = s.added := rfl
@[simp] theorem State.protect_draws (a : Nat) (m : W64) : (s.protect a m).draws = s.draws := rfl

/-! `orReg` changes `regs` and `guarded` alone. -/

@[simp] theorem State.orReg_pending (a : Nat) (m : W64) : (s.orReg a m).pending = s.pending := (State.protect_pending _ _ _).trans (State.setReg_pending _ _ _)
@[simp] theorem State.orReg_cores (a : Nat) (m : W64) : (s.orReg a m).cores = s.cores := (State.protect_cores _ _ _).trans (State.setReg_cores _ _ _)
@[simp] theorem State.orReg_seat (a : Nat) (m : W64) : (s.orReg a m).seat = s.seat := (State.protect_seat _ _ _).trans (State.setReg_seat _ _ _)
@[simp] theorem State.orReg_engines (a : Nat) (m : W64) : (s.orReg a m).engines = s.engines := (State.protect_engines _ _ _).trans (State.setReg_engines _ _ _)
@[simp] theorem State.orReg_links (a : Nat) (m : W64) : (s.orReg a m).links = s.links := (State.protect_links _ _ _).trans (State.setReg_links _ _ _)
@[simp] theorem State.orReg_host (a : Nat) (m : W64) : (s.orReg a m).host = s.host := (State.protect_host _ _ _).trans (State.setReg_host _ _ _)
@[simp] theorem State.orReg_crix (a : Nat) (m : W64) : (s.orReg a m).crix = s.crix := (State.protect_crix _ _ _).trans (State.setReg_crix _ _ _)
@[simp] theorem State.orReg_power (a : Nat) (m : W64) : (s.orReg a m).power = s.power := (State.protect_power _ _ _).trans (State.setReg_power _ _ _)
@[simp] theorem State.orReg_heat (a : Nat) (m : W64) : (s.orReg a m).heat = s.heat := (State.protect_heat _ _ _).trans (State.setReg_heat _ _ _)
@[simp] theorem State.orReg_boot (a : Nat) (m : W64) : (s.orReg a m).boot = s.boot := (State.protect_boot _ _ _).trans (State.setReg_boot _ _ _)
@[simp] theorem State.orReg_sec (a : Nat) (m : W64) : (s.orReg a m).sec = s.sec := (State.protect_sec _ _ _).trans (State.setReg_sec _ _ _)
@[simp] theorem State.orReg_hubQueue (a : Nat) (m : W64) : (s.orReg a m).hubQueue = s.hubQueue := (State.protect_hubQueue _ _ _).trans (State.setReg_hubQueue _ _ _)
@[simp] theorem State.orReg_sent (a : Nat) (m : W64) : (s.orReg a m).sent = s.sent := (State.protect_sent _ _ _).trans (State.setReg_sent _ _ _)
@[simp] theorem State.orReg_added (a : Nat) (m : W64) : (s.orReg a m).added = s.added := (State.protect_added _ _ _).trans (State.setReg_added _ _ _)
@[simp] theorem State.orReg_draws (a : Nat) (m : W64) : (s.orReg a m).draws = s.draws := (State.protect_draws _ _ _).trans (State.setReg_draws _ _ _)

/-! `flag` changes `regs` and `guarded` alone. -/

@[simp] theorem State.flag_pending (a i : Nat) : (s.flag a i).pending = s.pending := State.orReg_pending _ _ _
@[simp] theorem State.flag_cores (a i : Nat) : (s.flag a i).cores = s.cores := State.orReg_cores _ _ _
@[simp] theorem State.flag_seat (a i : Nat) : (s.flag a i).seat = s.seat := State.orReg_seat _ _ _
@[simp] theorem State.flag_engines (a i : Nat) : (s.flag a i).engines = s.engines := State.orReg_engines _ _ _
@[simp] theorem State.flag_links (a i : Nat) : (s.flag a i).links = s.links := State.orReg_links _ _ _
@[simp] theorem State.flag_host (a i : Nat) : (s.flag a i).host = s.host := State.orReg_host _ _ _
@[simp] theorem State.flag_crix (a i : Nat) : (s.flag a i).crix = s.crix := State.orReg_crix _ _ _
@[simp] theorem State.flag_power (a i : Nat) : (s.flag a i).power = s.power := State.orReg_power _ _ _
@[simp] theorem State.flag_heat (a i : Nat) : (s.flag a i).heat = s.heat := State.orReg_heat _ _ _
@[simp] theorem State.flag_boot (a i : Nat) : (s.flag a i).boot = s.boot := State.orReg_boot _ _ _
@[simp] theorem State.flag_sec (a i : Nat) : (s.flag a i).sec = s.sec := State.orReg_sec _ _ _
@[simp] theorem State.flag_hubQueue (a i : Nat) : (s.flag a i).hubQueue = s.hubQueue := State.orReg_hubQueue _ _ _
@[simp] theorem State.flag_sent (a i : Nat) : (s.flag a i).sent = s.sent := State.orReg_sent _ _ _
@[simp] theorem State.flag_added (a i : Nat) : (s.flag a i).added = s.added := State.orReg_added _ _ _
@[simp] theorem State.flag_draws (a i : Nat) : (s.flag a i).draws = s.draws := State.orReg_draws _ _ _

/-! `addTo` changes `regs` and `guarded` alone. -/

@[simp] theorem State.addTo_pending (b : Bump) : (s.addTo b).pending = s.pending := by
  unfold State.addTo
  dsimp only
  split
  · exact State.wr_pending _ _ _ _ _
  · split <;> simp
@[simp] theorem State.addTo_cores (b : Bump) : (s.addTo b).cores = s.cores := by
  unfold State.addTo
  dsimp only
  split
  · exact State.wr_cores _ _ _ _ _
  · split <;> simp
@[simp] theorem State.addTo_seat (b : Bump) : (s.addTo b).seat = s.seat := by
  unfold State.addTo
  dsimp only
  split
  · exact State.wr_seat _ _ _ _ _
  · split <;> simp
@[simp] theorem State.addTo_engines (b : Bump) : (s.addTo b).engines = s.engines := by
  unfold State.addTo
  dsimp only
  split
  · exact State.wr_engines _ _ _ _ _
  · split <;> simp
@[simp] theorem State.addTo_links (b : Bump) : (s.addTo b).links = s.links := by
  unfold State.addTo
  dsimp only
  split
  · exact State.wr_links _ _ _ _ _
  · split <;> simp
@[simp] theorem State.addTo_host (b : Bump) : (s.addTo b).host = s.host := by
  unfold State.addTo
  dsimp only
  split
  · exact State.wr_host _ _ _ _ _
  · split <;> simp
@[simp] theorem State.addTo_crix (b : Bump) : (s.addTo b).crix = s.crix := by
  unfold State.addTo
  dsimp only
  split
  · exact State.wr_crix _ _ _ _ _
  · split <;> simp
@[simp] theorem State.addTo_power (b : Bump) : (s.addTo b).power = s.power := by
  unfold State.addTo
  dsimp only
  split
  · exact State.wr_power _ _ _ _ _
  · split <;> simp
@[simp] theorem State.addTo_heat (b : Bump) : (s.addTo b).heat = s.heat := by
  unfold State.addTo
  dsimp only
  split
  · exact State.wr_heat _ _ _ _ _
  · split <;> simp
@[simp] theorem State.addTo_boot (b : Bump) : (s.addTo b).boot = s.boot := by
  unfold State.addTo
  dsimp only
  split
  · exact State.wr_boot _ _ _ _ _
  · split <;> simp
@[simp] theorem State.addTo_sec (b : Bump) : (s.addTo b).sec = s.sec := by
  unfold State.addTo
  dsimp only
  split
  · exact State.wr_sec _ _ _ _ _
  · split <;> simp
@[simp] theorem State.addTo_hubQueue (b : Bump) : (s.addTo b).hubQueue = s.hubQueue := by
  unfold State.addTo
  dsimp only
  split
  · exact State.wr_hubQueue _ _ _ _ _
  · split <;> simp
@[simp] theorem State.addTo_sent (b : Bump) : (s.addTo b).sent = s.sent := by
  unfold State.addTo
  dsimp only
  split
  · exact State.wr_sent _ _ _ _ _
  · split <;> simp
@[simp] theorem State.addTo_added (b : Bump) : (s.addTo b).added = s.added := by
  unfold State.addTo
  dsimp only
  split
  · exact State.wr_added _ _ _ _ _
  · split <;> simp
@[simp] theorem State.addTo_draws (b : Bump) : (s.addTo b).draws = s.draws := by
  unfold State.addTo
  dsimp only
  split
  · exact State.wr_draws _ _ _ _ _
  · split <;> simp

/-! `bump` changes `regs` and `guarded` and `added` alone. -/

@[simp] theorem State.bump_pending (b : Bump) : (s.bump b).pending = s.pending := State.addTo_pending _ _
@[simp] theorem State.bump_cores (b : Bump) : (s.bump b).cores = s.cores := State.addTo_cores _ _
@[simp] theorem State.bump_seat (b : Bump) : (s.bump b).seat = s.seat := State.addTo_seat _ _
@[simp] theorem State.bump_engines (b : Bump) : (s.bump b).engines = s.engines := State.addTo_engines _ _
@[simp] theorem State.bump_links (b : Bump) : (s.bump b).links = s.links := State.addTo_links _ _
@[simp] theorem State.bump_host (b : Bump) : (s.bump b).host = s.host := State.addTo_host _ _
@[simp] theorem State.bump_crix (b : Bump) : (s.bump b).crix = s.crix := State.addTo_crix _ _
@[simp] theorem State.bump_power (b : Bump) : (s.bump b).power = s.power := State.addTo_power _ _
@[simp] theorem State.bump_heat (b : Bump) : (s.bump b).heat = s.heat := State.addTo_heat _ _
@[simp] theorem State.bump_boot (b : Bump) : (s.bump b).boot = s.boot := State.addTo_boot _ _
@[simp] theorem State.bump_sec (b : Bump) : (s.bump b).sec = s.sec := State.addTo_sec _ _
@[simp] theorem State.bump_hubQueue (b : Bump) : (s.bump b).hubQueue = s.hubQueue := State.addTo_hubQueue _ _
@[simp] theorem State.bump_sent (b : Bump) : (s.bump b).sent = s.sent := State.addTo_sent _ _
@[simp] theorem State.bump_draws (b : Bump) : (s.bump b).draws = s.draws := State.addTo_draws _ _

/-! `count` changes `regs` and `guarded` and `added` alone. -/

@[simp] theorem State.count_pending (a hi lo n : Nat) : (s.count a hi lo n).pending = s.pending := State.bump_pending _ _
@[simp] theorem State.count_cores (a hi lo n : Nat) : (s.count a hi lo n).cores = s.cores := State.bump_cores _ _
@[simp] theorem State.count_seat (a hi lo n : Nat) : (s.count a hi lo n).seat = s.seat := State.bump_seat _ _
@[simp] theorem State.count_engines (a hi lo n : Nat) : (s.count a hi lo n).engines = s.engines := State.bump_engines _ _
@[simp] theorem State.count_links (a hi lo n : Nat) : (s.count a hi lo n).links = s.links := State.bump_links _ _
@[simp] theorem State.count_host (a hi lo n : Nat) : (s.count a hi lo n).host = s.host := State.bump_host _ _
@[simp] theorem State.count_crix (a hi lo n : Nat) : (s.count a hi lo n).crix = s.crix := State.bump_crix _ _
@[simp] theorem State.count_power (a hi lo n : Nat) : (s.count a hi lo n).power = s.power := State.bump_power _ _
@[simp] theorem State.count_heat (a hi lo n : Nat) : (s.count a hi lo n).heat = s.heat := State.bump_heat _ _
@[simp] theorem State.count_boot (a hi lo n : Nat) : (s.count a hi lo n).boot = s.boot := State.bump_boot _ _
@[simp] theorem State.count_sec (a hi lo n : Nat) : (s.count a hi lo n).sec = s.sec := State.bump_sec _ _
@[simp] theorem State.count_hubQueue (a hi lo n : Nat) : (s.count a hi lo n).hubQueue = s.hubQueue := State.bump_hubQueue _ _
@[simp] theorem State.count_sent (a hi lo n : Nat) : (s.count a hi lo n).sent = s.sent := State.bump_sent _ _
@[simp] theorem State.count_draws (a hi lo n : Nat) : (s.count a hi lo n).draws = s.draws := State.bump_draws _ _

/-! `tally` changes `regs` and `guarded` and `added` alone. -/

@[simp] theorem State.tally_pending (a o k n : Nat) : (s.tally a o k n).pending = s.pending := State.bump_pending _ _
@[simp] theorem State.tally_cores (a o k n : Nat) : (s.tally a o k n).cores = s.cores := State.bump_cores _ _
@[simp] theorem State.tally_seat (a o k n : Nat) : (s.tally a o k n).seat = s.seat := State.bump_seat _ _
@[simp] theorem State.tally_engines (a o k n : Nat) : (s.tally a o k n).engines = s.engines := State.bump_engines _ _
@[simp] theorem State.tally_links (a o k n : Nat) : (s.tally a o k n).links = s.links := State.bump_links _ _
@[simp] theorem State.tally_host (a o k n : Nat) : (s.tally a o k n).host = s.host := State.bump_host _ _
@[simp] theorem State.tally_crix (a o k n : Nat) : (s.tally a o k n).crix = s.crix := State.bump_crix _ _
@[simp] theorem State.tally_power (a o k n : Nat) : (s.tally a o k n).power = s.power := State.bump_power _ _
@[simp] theorem State.tally_heat (a o k n : Nat) : (s.tally a o k n).heat = s.heat := State.bump_heat _ _
@[simp] theorem State.tally_boot (a o k n : Nat) : (s.tally a o k n).boot = s.boot := State.bump_boot _ _
@[simp] theorem State.tally_sec (a o k n : Nat) : (s.tally a o k n).sec = s.sec := State.bump_sec _ _
@[simp] theorem State.tally_hubQueue (a o k n : Nat) : (s.tally a o k n).hubQueue = s.hubQueue := State.bump_hubQueue _ _
@[simp] theorem State.tally_sent (a o k n : Nat) : (s.tally a o k n).sent = s.sent := State.bump_sent _ _
@[simp] theorem State.tally_draws (a o k n : Nat) : (s.tally a o k n).draws = s.draws := State.bump_draws _ _

/-! `setCore` changes `cores` alone. -/

@[simp] theorem State.setCore_pending (p : PCore) (c : Core) : (s.setCore p c).pending = s.pending := rfl
@[simp] theorem State.setCore_regs (p : PCore) (c : Core) : (s.setCore p c).regs = s.regs := rfl
@[simp] theorem State.setCore_seat (p : PCore) (c : Core) : (s.setCore p c).seat = s.seat := rfl
@[simp] theorem State.setCore_engines (p : PCore) (c : Core) : (s.setCore p c).engines = s.engines := rfl
@[simp] theorem State.setCore_links (p : PCore) (c : Core) : (s.setCore p c).links = s.links := rfl
@[simp] theorem State.setCore_host (p : PCore) (c : Core) : (s.setCore p c).host = s.host := rfl
@[simp] theorem State.setCore_crix (p : PCore) (c : Core) : (s.setCore p c).crix = s.crix := rfl
@[simp] theorem State.setCore_power (p : PCore) (c : Core) : (s.setCore p c).power = s.power := rfl
@[simp] theorem State.setCore_heat (p : PCore) (c : Core) : (s.setCore p c).heat = s.heat := rfl
@[simp] theorem State.setCore_boot (p : PCore) (c : Core) : (s.setCore p c).boot = s.boot := rfl
@[simp] theorem State.setCore_sec (p : PCore) (c : Core) : (s.setCore p c).sec = s.sec := rfl
@[simp] theorem State.setCore_hubQueue (p : PCore) (c : Core) : (s.setCore p c).hubQueue = s.hubQueue := rfl
@[simp] theorem State.setCore_sent (p : PCore) (c : Core) : (s.setCore p c).sent = s.sent := rfl
@[simp] theorem State.setCore_guarded (p : PCore) (c : Core) : (s.setCore p c).guarded = s.guarded := rfl
@[simp] theorem State.setCore_added (p : PCore) (c : Core) : (s.setCore p c).added = s.added := rfl
@[simp] theorem State.setCore_draws (p : PCore) (c : Core) : (s.setCore p c).draws = s.draws := rfl

/-! `setVault` changes `cores` alone. -/

@[simp] theorem State.setVault_pending (p : PCore) (v : Vault) : (s.setVault p v).pending = s.pending := State.setCore_pending _ _ _
@[simp] theorem State.setVault_regs (p : PCore) (v : Vault) : (s.setVault p v).regs = s.regs := State.setCore_regs _ _ _
@[simp] theorem State.setVault_seat (p : PCore) (v : Vault) : (s.setVault p v).seat = s.seat := State.setCore_seat _ _ _
@[simp] theorem State.setVault_engines (p : PCore) (v : Vault) : (s.setVault p v).engines = s.engines := State.setCore_engines _ _ _
@[simp] theorem State.setVault_links (p : PCore) (v : Vault) : (s.setVault p v).links = s.links := State.setCore_links _ _ _
@[simp] theorem State.setVault_host (p : PCore) (v : Vault) : (s.setVault p v).host = s.host := State.setCore_host _ _ _
@[simp] theorem State.setVault_crix (p : PCore) (v : Vault) : (s.setVault p v).crix = s.crix := State.setCore_crix _ _ _
@[simp] theorem State.setVault_power (p : PCore) (v : Vault) : (s.setVault p v).power = s.power := State.setCore_power _ _ _
@[simp] theorem State.setVault_heat (p : PCore) (v : Vault) : (s.setVault p v).heat = s.heat := State.setCore_heat _ _ _
@[simp] theorem State.setVault_boot (p : PCore) (v : Vault) : (s.setVault p v).boot = s.boot := State.setCore_boot _ _ _
@[simp] theorem State.setVault_sec (p : PCore) (v : Vault) : (s.setVault p v).sec = s.sec := State.setCore_sec _ _ _
@[simp] theorem State.setVault_hubQueue (p : PCore) (v : Vault) : (s.setVault p v).hubQueue = s.hubQueue := State.setCore_hubQueue _ _ _
@[simp] theorem State.setVault_sent (p : PCore) (v : Vault) : (s.setVault p v).sent = s.sent := State.setCore_sent _ _ _
@[simp] theorem State.setVault_guarded (p : PCore) (v : Vault) : (s.setVault p v).guarded = s.guarded := State.setCore_guarded _ _ _
@[simp] theorem State.setVault_added (p : PCore) (v : Vault) : (s.setVault p v).added = s.added := State.setCore_added _ _ _
@[simp] theorem State.setVault_draws (p : PCore) (v : Vault) : (s.setVault p v).draws = s.draws := State.setCore_draws _ _ _

/-! `setIb` changes `cores` alone. -/

@[simp] theorem State.setIb_pending (p : PCore) (x : InBank) : (s.setIb p x).pending = s.pending := State.setCore_pending _ _ _
@[simp] theorem State.setIb_regs (p : PCore) (x : InBank) : (s.setIb p x).regs = s.regs := State.setCore_regs _ _ _
@[simp] theorem State.setIb_seat (p : PCore) (x : InBank) : (s.setIb p x).seat = s.seat := State.setCore_seat _ _ _
@[simp] theorem State.setIb_engines (p : PCore) (x : InBank) : (s.setIb p x).engines = s.engines := State.setCore_engines _ _ _
@[simp] theorem State.setIb_links (p : PCore) (x : InBank) : (s.setIb p x).links = s.links := State.setCore_links _ _ _
@[simp] theorem State.setIb_host (p : PCore) (x : InBank) : (s.setIb p x).host = s.host := State.setCore_host _ _ _
@[simp] theorem State.setIb_crix (p : PCore) (x : InBank) : (s.setIb p x).crix = s.crix := State.setCore_crix _ _ _
@[simp] theorem State.setIb_power (p : PCore) (x : InBank) : (s.setIb p x).power = s.power := State.setCore_power _ _ _
@[simp] theorem State.setIb_heat (p : PCore) (x : InBank) : (s.setIb p x).heat = s.heat := State.setCore_heat _ _ _
@[simp] theorem State.setIb_boot (p : PCore) (x : InBank) : (s.setIb p x).boot = s.boot := State.setCore_boot _ _ _
@[simp] theorem State.setIb_sec (p : PCore) (x : InBank) : (s.setIb p x).sec = s.sec := State.setCore_sec _ _ _
@[simp] theorem State.setIb_hubQueue (p : PCore) (x : InBank) : (s.setIb p x).hubQueue = s.hubQueue := State.setCore_hubQueue _ _ _
@[simp] theorem State.setIb_sent (p : PCore) (x : InBank) : (s.setIb p x).sent = s.sent := State.setCore_sent _ _ _
@[simp] theorem State.setIb_guarded (p : PCore) (x : InBank) : (s.setIb p x).guarded = s.guarded := State.setCore_guarded _ _ _
@[simp] theorem State.setIb_added (p : PCore) (x : InBank) : (s.setIb p x).added = s.added := State.setCore_added _ _ _
@[simp] theorem State.setIb_draws (p : PCore) (x : InBank) : (s.setIb p x).draws = s.draws := State.setCore_draws _ _ _

/-! `draw` changes `draws` alone. -/

@[simp] theorem State.draw_pending : s.draw.pending = s.pending := rfl
@[simp] theorem State.draw_regs : s.draw.regs = s.regs := rfl
@[simp] theorem State.draw_cores : s.draw.cores = s.cores := rfl
@[simp] theorem State.draw_seat : s.draw.seat = s.seat := rfl
@[simp] theorem State.draw_engines : s.draw.engines = s.engines := rfl
@[simp] theorem State.draw_links : s.draw.links = s.links := rfl
@[simp] theorem State.draw_host : s.draw.host = s.host := rfl
@[simp] theorem State.draw_crix : s.draw.crix = s.crix := rfl
@[simp] theorem State.draw_power : s.draw.power = s.power := rfl
@[simp] theorem State.draw_heat : s.draw.heat = s.heat := rfl
@[simp] theorem State.draw_boot : s.draw.boot = s.boot := rfl
@[simp] theorem State.draw_sec : s.draw.sec = s.sec := rfl
@[simp] theorem State.draw_hubQueue : s.draw.hubQueue = s.hubQueue := rfl
@[simp] theorem State.draw_sent : s.draw.sent = s.sent := rfl
@[simp] theorem State.draw_guarded : s.draw.guarded = s.guarded := rfl
@[simp] theorem State.draw_added : s.draw.added = s.added := rfl

/-! `setSeat` changes `seat` alone. -/

@[simp] theorem State.setSeat_pending (x : Seat) : (s.setSeat x).pending = s.pending := rfl
@[simp] theorem State.setSeat_regs (x : Seat) : (s.setSeat x).regs = s.regs := rfl
@[simp] theorem State.setSeat_cores (x : Seat) : (s.setSeat x).cores = s.cores := rfl
@[simp] theorem State.setSeat_engines (x : Seat) : (s.setSeat x).engines = s.engines := rfl
@[simp] theorem State.setSeat_links (x : Seat) : (s.setSeat x).links = s.links := rfl
@[simp] theorem State.setSeat_host (x : Seat) : (s.setSeat x).host = s.host := rfl
@[simp] theorem State.setSeat_crix (x : Seat) : (s.setSeat x).crix = s.crix := rfl
@[simp] theorem State.setSeat_power (x : Seat) : (s.setSeat x).power = s.power := rfl
@[simp] theorem State.setSeat_heat (x : Seat) : (s.setSeat x).heat = s.heat := rfl
@[simp] theorem State.setSeat_boot (x : Seat) : (s.setSeat x).boot = s.boot := rfl
@[simp] theorem State.setSeat_sec (x : Seat) : (s.setSeat x).sec = s.sec := rfl
@[simp] theorem State.setSeat_hubQueue (x : Seat) : (s.setSeat x).hubQueue = s.hubQueue := rfl
@[simp] theorem State.setSeat_sent (x : Seat) : (s.setSeat x).sent = s.sent := rfl
@[simp] theorem State.setSeat_guarded (x : Seat) : (s.setSeat x).guarded = s.guarded := rfl
@[simp] theorem State.setSeat_added (x : Seat) : (s.setSeat x).added = s.added := rfl
@[simp] theorem State.setSeat_draws (x : Seat) : (s.setSeat x).draws = s.draws := rfl

/-! `setTbl` changes `regs` alone. -/

@[simp] theorem State.setTbl_pending (n : Nat) : (s.setTbl n).pending = s.pending := State.wr_pending _ _ _ _ _
@[simp] theorem State.setTbl_cores (n : Nat) : (s.setTbl n).cores = s.cores := State.wr_cores _ _ _ _ _
@[simp] theorem State.setTbl_seat (n : Nat) : (s.setTbl n).seat = s.seat := State.wr_seat _ _ _ _ _
@[simp] theorem State.setTbl_engines (n : Nat) : (s.setTbl n).engines = s.engines := State.wr_engines _ _ _ _ _
@[simp] theorem State.setTbl_links (n : Nat) : (s.setTbl n).links = s.links := State.wr_links _ _ _ _ _
@[simp] theorem State.setTbl_host (n : Nat) : (s.setTbl n).host = s.host := State.wr_host _ _ _ _ _
@[simp] theorem State.setTbl_crix (n : Nat) : (s.setTbl n).crix = s.crix := State.wr_crix _ _ _ _ _
@[simp] theorem State.setTbl_power (n : Nat) : (s.setTbl n).power = s.power := State.wr_power _ _ _ _ _
@[simp] theorem State.setTbl_heat (n : Nat) : (s.setTbl n).heat = s.heat := State.wr_heat _ _ _ _ _
@[simp] theorem State.setTbl_boot (n : Nat) : (s.setTbl n).boot = s.boot := State.wr_boot _ _ _ _ _
@[simp] theorem State.setTbl_sec (n : Nat) : (s.setTbl n).sec = s.sec := State.wr_sec _ _ _ _ _
@[simp] theorem State.setTbl_hubQueue (n : Nat) : (s.setTbl n).hubQueue = s.hubQueue := State.wr_hubQueue _ _ _ _ _
@[simp] theorem State.setTbl_sent (n : Nat) : (s.setTbl n).sent = s.sent := State.wr_sent _ _ _ _ _
@[simp] theorem State.setTbl_guarded (n : Nat) : (s.setTbl n).guarded = s.guarded := State.wr_guarded _ _ _ _ _
@[simp] theorem State.setTbl_added (n : Nat) : (s.setTbl n).added = s.added := State.wr_added _ _ _ _ _
@[simp] theorem State.setTbl_draws (n : Nat) : (s.setTbl n).draws = s.draws := State.wr_draws _ _ _ _ _

/-! `setCoreState` changes `regs` alone. -/

@[simp] theorem State.setCoreState_pending (p : PCore) (n : Nat) : (s.setCoreState p n).pending = s.pending := by
  unfold State.setCoreState
  dsimp only
  split <;> simp
@[simp] theorem State.setCoreState_cores (p : PCore) (n : Nat) : (s.setCoreState p n).cores = s.cores := by
  unfold State.setCoreState
  dsimp only
  split <;> simp
@[simp] theorem State.setCoreState_seat (p : PCore) (n : Nat) : (s.setCoreState p n).seat = s.seat := by
  unfold State.setCoreState
  dsimp only
  split <;> simp
@[simp] theorem State.setCoreState_engines (p : PCore) (n : Nat) : (s.setCoreState p n).engines = s.engines := by
  unfold State.setCoreState
  dsimp only
  split <;> simp
@[simp] theorem State.setCoreState_links (p : PCore) (n : Nat) : (s.setCoreState p n).links = s.links := by
  unfold State.setCoreState
  dsimp only
  split <;> simp
@[simp] theorem State.setCoreState_host (p : PCore) (n : Nat) : (s.setCoreState p n).host = s.host := by
  unfold State.setCoreState
  dsimp only
  split <;> simp
@[simp] theorem State.setCoreState_crix (p : PCore) (n : Nat) : (s.setCoreState p n).crix = s.crix := by
  unfold State.setCoreState
  dsimp only
  split <;> simp
@[simp] theorem State.setCoreState_power (p : PCore) (n : Nat) : (s.setCoreState p n).power = s.power := by
  unfold State.setCoreState
  dsimp only
  split <;> simp
@[simp] theorem State.setCoreState_heat (p : PCore) (n : Nat) : (s.setCoreState p n).heat = s.heat := by
  unfold State.setCoreState
  dsimp only
  split <;> simp
@[simp] theorem State.setCoreState_boot (p : PCore) (n : Nat) : (s.setCoreState p n).boot = s.boot := by
  unfold State.setCoreState
  dsimp only
  split <;> simp
@[simp] theorem State.setCoreState_sec (p : PCore) (n : Nat) : (s.setCoreState p n).sec = s.sec := by
  unfold State.setCoreState
  dsimp only
  split <;> simp
@[simp] theorem State.setCoreState_hubQueue (p : PCore) (n : Nat) : (s.setCoreState p n).hubQueue = s.hubQueue := by
  unfold State.setCoreState
  dsimp only
  split <;> simp
@[simp] theorem State.setCoreState_sent (p : PCore) (n : Nat) : (s.setCoreState p n).sent = s.sent := by
  unfold State.setCoreState
  dsimp only
  split <;> simp
@[simp] theorem State.setCoreState_guarded (p : PCore) (n : Nat) : (s.setCoreState p n).guarded = s.guarded := by
  unfold State.setCoreState
  dsimp only
  split <;> simp
@[simp] theorem State.setCoreState_added (p : PCore) (n : Nat) : (s.setCoreState p n).added = s.added := by
  unfold State.setCoreState
  dsimp only
  split <;> simp
@[simp] theorem State.setCoreState_draws (p : PCore) (n : Nat) : (s.setCoreState p n).draws = s.draws := by
  unfold State.setCoreState
  dsimp only
  split <;> simp

/-! `setEngine` changes `engines` alone. -/

@[simp] theorem State.setEngine_pending (e : EngIx) (x : Engine) : (s.setEngine e x).pending = s.pending := rfl
@[simp] theorem State.setEngine_regs (e : EngIx) (x : Engine) : (s.setEngine e x).regs = s.regs := rfl
@[simp] theorem State.setEngine_cores (e : EngIx) (x : Engine) : (s.setEngine e x).cores = s.cores := rfl
@[simp] theorem State.setEngine_seat (e : EngIx) (x : Engine) : (s.setEngine e x).seat = s.seat := rfl
@[simp] theorem State.setEngine_links (e : EngIx) (x : Engine) : (s.setEngine e x).links = s.links := rfl
@[simp] theorem State.setEngine_host (e : EngIx) (x : Engine) : (s.setEngine e x).host = s.host := rfl
@[simp] theorem State.setEngine_crix (e : EngIx) (x : Engine) : (s.setEngine e x).crix = s.crix := rfl
@[simp] theorem State.setEngine_power (e : EngIx) (x : Engine) : (s.setEngine e x).power = s.power := rfl
@[simp] theorem State.setEngine_heat (e : EngIx) (x : Engine) : (s.setEngine e x).heat = s.heat := rfl
@[simp] theorem State.setEngine_boot (e : EngIx) (x : Engine) : (s.setEngine e x).boot = s.boot := rfl
@[simp] theorem State.setEngine_sec (e : EngIx) (x : Engine) : (s.setEngine e x).sec = s.sec := rfl
@[simp] theorem State.setEngine_hubQueue (e : EngIx) (x : Engine) : (s.setEngine e x).hubQueue = s.hubQueue := rfl
@[simp] theorem State.setEngine_sent (e : EngIx) (x : Engine) : (s.setEngine e x).sent = s.sent := rfl
@[simp] theorem State.setEngine_guarded (e : EngIx) (x : Engine) : (s.setEngine e x).guarded = s.guarded := rfl
@[simp] theorem State.setEngine_added (e : EngIx) (x : Engine) : (s.setEngine e x).added = s.added := rfl
@[simp] theorem State.setEngine_draws (e : EngIx) (x : Engine) : (s.setEngine e x).draws = s.draws := rfl

/-! `setLink` changes `links` alone. -/

@[simp] theorem State.setLink_pending (l : LinkIx) (x : Link) : (s.setLink l x).pending = s.pending := rfl
@[simp] theorem State.setLink_regs (l : LinkIx) (x : Link) : (s.setLink l x).regs = s.regs := rfl
@[simp] theorem State.setLink_cores (l : LinkIx) (x : Link) : (s.setLink l x).cores = s.cores := rfl
@[simp] theorem State.setLink_seat (l : LinkIx) (x : Link) : (s.setLink l x).seat = s.seat := rfl
@[simp] theorem State.setLink_engines (l : LinkIx) (x : Link) : (s.setLink l x).engines = s.engines := rfl
@[simp] theorem State.setLink_host (l : LinkIx) (x : Link) : (s.setLink l x).host = s.host := rfl
@[simp] theorem State.setLink_crix (l : LinkIx) (x : Link) : (s.setLink l x).crix = s.crix := rfl
@[simp] theorem State.setLink_power (l : LinkIx) (x : Link) : (s.setLink l x).power = s.power := rfl
@[simp] theorem State.setLink_heat (l : LinkIx) (x : Link) : (s.setLink l x).heat = s.heat := rfl
@[simp] theorem State.setLink_boot (l : LinkIx) (x : Link) : (s.setLink l x).boot = s.boot := rfl
@[simp] theorem State.setLink_sec (l : LinkIx) (x : Link) : (s.setLink l x).sec = s.sec := rfl
@[simp] theorem State.setLink_hubQueue (l : LinkIx) (x : Link) : (s.setLink l x).hubQueue = s.hubQueue := rfl
@[simp] theorem State.setLink_sent (l : LinkIx) (x : Link) : (s.setLink l x).sent = s.sent := rfl
@[simp] theorem State.setLink_guarded (l : LinkIx) (x : Link) : (s.setLink l x).guarded = s.guarded := rfl
@[simp] theorem State.setLink_added (l : LinkIx) (x : Link) : (s.setLink l x).added = s.added := rfl
@[simp] theorem State.setLink_draws (l : LinkIx) (x : Link) : (s.setLink l x).draws = s.draws := rfl

/-! `setPower` changes `power` alone. -/

@[simp] theorem State.setPower_pending (t : Tower) (x : TowerPower) : (s.setPower t x).pending = s.pending := rfl
@[simp] theorem State.setPower_regs (t : Tower) (x : TowerPower) : (s.setPower t x).regs = s.regs := rfl
@[simp] theorem State.setPower_cores (t : Tower) (x : TowerPower) : (s.setPower t x).cores = s.cores := rfl
@[simp] theorem State.setPower_seat (t : Tower) (x : TowerPower) : (s.setPower t x).seat = s.seat := rfl
@[simp] theorem State.setPower_engines (t : Tower) (x : TowerPower) : (s.setPower t x).engines = s.engines := rfl
@[simp] theorem State.setPower_links (t : Tower) (x : TowerPower) : (s.setPower t x).links = s.links := rfl
@[simp] theorem State.setPower_host (t : Tower) (x : TowerPower) : (s.setPower t x).host = s.host := rfl
@[simp] theorem State.setPower_crix (t : Tower) (x : TowerPower) : (s.setPower t x).crix = s.crix := rfl
@[simp] theorem State.setPower_heat (t : Tower) (x : TowerPower) : (s.setPower t x).heat = s.heat := rfl
@[simp] theorem State.setPower_boot (t : Tower) (x : TowerPower) : (s.setPower t x).boot = s.boot := rfl
@[simp] theorem State.setPower_sec (t : Tower) (x : TowerPower) : (s.setPower t x).sec = s.sec := rfl
@[simp] theorem State.setPower_hubQueue (t : Tower) (x : TowerPower) : (s.setPower t x).hubQueue = s.hubQueue := rfl
@[simp] theorem State.setPower_sent (t : Tower) (x : TowerPower) : (s.setPower t x).sent = s.sent := rfl
@[simp] theorem State.setPower_guarded (t : Tower) (x : TowerPower) : (s.setPower t x).guarded = s.guarded := rfl
@[simp] theorem State.setPower_added (t : Tower) (x : TowerPower) : (s.setPower t x).added = s.added := rfl
@[simp] theorem State.setPower_draws (t : Tower) (x : TowerPower) : (s.setPower t x).draws = s.draws := rfl

/-! `setTerm` changes `power` alone. -/

@[simp] theorem State.setTerm_pending (t : Tower) (i : Fin 5) (n : Nat) : (s.setTerm t i n).pending = s.pending := State.setPower_pending _ _ _
@[simp] theorem State.setTerm_regs (t : Tower) (i : Fin 5) (n : Nat) : (s.setTerm t i n).regs = s.regs := State.setPower_regs _ _ _
@[simp] theorem State.setTerm_cores (t : Tower) (i : Fin 5) (n : Nat) : (s.setTerm t i n).cores = s.cores := State.setPower_cores _ _ _
@[simp] theorem State.setTerm_seat (t : Tower) (i : Fin 5) (n : Nat) : (s.setTerm t i n).seat = s.seat := State.setPower_seat _ _ _
@[simp] theorem State.setTerm_engines (t : Tower) (i : Fin 5) (n : Nat) : (s.setTerm t i n).engines = s.engines := State.setPower_engines _ _ _
@[simp] theorem State.setTerm_links (t : Tower) (i : Fin 5) (n : Nat) : (s.setTerm t i n).links = s.links := State.setPower_links _ _ _
@[simp] theorem State.setTerm_host (t : Tower) (i : Fin 5) (n : Nat) : (s.setTerm t i n).host = s.host := State.setPower_host _ _ _
@[simp] theorem State.setTerm_crix (t : Tower) (i : Fin 5) (n : Nat) : (s.setTerm t i n).crix = s.crix := State.setPower_crix _ _ _
@[simp] theorem State.setTerm_heat (t : Tower) (i : Fin 5) (n : Nat) : (s.setTerm t i n).heat = s.heat := State.setPower_heat _ _ _
@[simp] theorem State.setTerm_boot (t : Tower) (i : Fin 5) (n : Nat) : (s.setTerm t i n).boot = s.boot := State.setPower_boot _ _ _
@[simp] theorem State.setTerm_sec (t : Tower) (i : Fin 5) (n : Nat) : (s.setTerm t i n).sec = s.sec := State.setPower_sec _ _ _
@[simp] theorem State.setTerm_hubQueue (t : Tower) (i : Fin 5) (n : Nat) : (s.setTerm t i n).hubQueue = s.hubQueue := State.setPower_hubQueue _ _ _
@[simp] theorem State.setTerm_sent (t : Tower) (i : Fin 5) (n : Nat) : (s.setTerm t i n).sent = s.sent := State.setPower_sent _ _ _
@[simp] theorem State.setTerm_guarded (t : Tower) (i : Fin 5) (n : Nat) : (s.setTerm t i n).guarded = s.guarded := State.setPower_guarded _ _ _
@[simp] theorem State.setTerm_added (t : Tower) (i : Fin 5) (n : Nat) : (s.setTerm t i n).added = s.added := State.setPower_added _ _ _
@[simp] theorem State.setTerm_draws (t : Tower) (i : Fin 5) (n : Nat) : (s.setTerm t i n).draws = s.draws := State.setPower_draws _ _ _

/-! `setHeat` changes `heat` alone. -/

@[simp] theorem State.setHeat_pending (t : Tower) (x : TowerHeat) : (s.setHeat t x).pending = s.pending := rfl
@[simp] theorem State.setHeat_regs (t : Tower) (x : TowerHeat) : (s.setHeat t x).regs = s.regs := rfl
@[simp] theorem State.setHeat_cores (t : Tower) (x : TowerHeat) : (s.setHeat t x).cores = s.cores := rfl
@[simp] theorem State.setHeat_seat (t : Tower) (x : TowerHeat) : (s.setHeat t x).seat = s.seat := rfl
@[simp] theorem State.setHeat_engines (t : Tower) (x : TowerHeat) : (s.setHeat t x).engines = s.engines := rfl
@[simp] theorem State.setHeat_links (t : Tower) (x : TowerHeat) : (s.setHeat t x).links = s.links := rfl
@[simp] theorem State.setHeat_host (t : Tower) (x : TowerHeat) : (s.setHeat t x).host = s.host := rfl
@[simp] theorem State.setHeat_crix (t : Tower) (x : TowerHeat) : (s.setHeat t x).crix = s.crix := rfl
@[simp] theorem State.setHeat_power (t : Tower) (x : TowerHeat) : (s.setHeat t x).power = s.power := rfl
@[simp] theorem State.setHeat_boot (t : Tower) (x : TowerHeat) : (s.setHeat t x).boot = s.boot := rfl
@[simp] theorem State.setHeat_sec (t : Tower) (x : TowerHeat) : (s.setHeat t x).sec = s.sec := rfl
@[simp] theorem State.setHeat_hubQueue (t : Tower) (x : TowerHeat) : (s.setHeat t x).hubQueue = s.hubQueue := rfl
@[simp] theorem State.setHeat_sent (t : Tower) (x : TowerHeat) : (s.setHeat t x).sent = s.sent := rfl
@[simp] theorem State.setHeat_guarded (t : Tower) (x : TowerHeat) : (s.setHeat t x).guarded = s.guarded := rfl
@[simp] theorem State.setHeat_added (t : Tower) (x : TowerHeat) : (s.setHeat t x).added = s.added := rfl
@[simp] theorem State.setHeat_draws (t : Tower) (x : TowerHeat) : (s.setHeat t x).draws = s.draws := rfl

/-! `event` changes `hubQueue` alone. -/

@[simp] theorem State.event_pending (code : Nat) (arg : W64) (req : Nat) : (s.event code arg req).pending = s.pending := rfl
@[simp] theorem State.event_regs (code : Nat) (arg : W64) (req : Nat) : (s.event code arg req).regs = s.regs := rfl
@[simp] theorem State.event_cores (code : Nat) (arg : W64) (req : Nat) : (s.event code arg req).cores = s.cores := rfl
@[simp] theorem State.event_seat (code : Nat) (arg : W64) (req : Nat) : (s.event code arg req).seat = s.seat := rfl
@[simp] theorem State.event_engines (code : Nat) (arg : W64) (req : Nat) : (s.event code arg req).engines = s.engines := rfl
@[simp] theorem State.event_links (code : Nat) (arg : W64) (req : Nat) : (s.event code arg req).links = s.links := rfl
@[simp] theorem State.event_host (code : Nat) (arg : W64) (req : Nat) : (s.event code arg req).host = s.host := rfl
@[simp] theorem State.event_crix (code : Nat) (arg : W64) (req : Nat) : (s.event code arg req).crix = s.crix := rfl
@[simp] theorem State.event_power (code : Nat) (arg : W64) (req : Nat) : (s.event code arg req).power = s.power := rfl
@[simp] theorem State.event_heat (code : Nat) (arg : W64) (req : Nat) : (s.event code arg req).heat = s.heat := rfl
@[simp] theorem State.event_boot (code : Nat) (arg : W64) (req : Nat) : (s.event code arg req).boot = s.boot := rfl
@[simp] theorem State.event_sec (code : Nat) (arg : W64) (req : Nat) : (s.event code arg req).sec = s.sec := rfl
@[simp] theorem State.event_sent (code : Nat) (arg : W64) (req : Nat) : (s.event code arg req).sent = s.sent := rfl
@[simp] theorem State.event_guarded (code : Nat) (arg : W64) (req : Nat) : (s.event code arg req).guarded = s.guarded := rfl
@[simp] theorem State.event_added (code : Nat) (arg : W64) (req : Nat) : (s.event code arg req).added = s.added := rfl
@[simp] theorem State.event_draws (code : Nat) (arg : W64) (req : Nat) : (s.event code arg req).draws = s.draws := rfl

/-! `eventN` changes `hubQueue` alone. -/

@[simp] theorem State.eventN_pending (code arg req : Nat) : (s.eventN code arg req).pending = s.pending := State.event_pending _ _ _ _
@[simp] theorem State.eventN_regs (code arg req : Nat) : (s.eventN code arg req).regs = s.regs := State.event_regs _ _ _ _
@[simp] theorem State.eventN_cores (code arg req : Nat) : (s.eventN code arg req).cores = s.cores := State.event_cores _ _ _ _
@[simp] theorem State.eventN_seat (code arg req : Nat) : (s.eventN code arg req).seat = s.seat := State.event_seat _ _ _ _
@[simp] theorem State.eventN_engines (code arg req : Nat) : (s.eventN code arg req).engines = s.engines := State.event_engines _ _ _ _
@[simp] theorem State.eventN_links (code arg req : Nat) : (s.eventN code arg req).links = s.links := State.event_links _ _ _ _
@[simp] theorem State.eventN_host (code arg req : Nat) : (s.eventN code arg req).host = s.host := State.event_host _ _ _ _
@[simp] theorem State.eventN_crix (code arg req : Nat) : (s.eventN code arg req).crix = s.crix := State.event_crix _ _ _ _
@[simp] theorem State.eventN_power (code arg req : Nat) : (s.eventN code arg req).power = s.power := State.event_power _ _ _ _
@[simp] theorem State.eventN_heat (code arg req : Nat) : (s.eventN code arg req).heat = s.heat := State.event_heat _ _ _ _
@[simp] theorem State.eventN_boot (code arg req : Nat) : (s.eventN code arg req).boot = s.boot := State.event_boot _ _ _ _
@[simp] theorem State.eventN_sec (code arg req : Nat) : (s.eventN code arg req).sec = s.sec := State.event_sec _ _ _ _
@[simp] theorem State.eventN_sent (code arg req : Nat) : (s.eventN code arg req).sent = s.sent := State.event_sent _ _ _ _
@[simp] theorem State.eventN_guarded (code arg req : Nat) : (s.eventN code arg req).guarded = s.guarded := State.event_guarded _ _ _ _
@[simp] theorem State.eventN_added (code arg req : Nat) : (s.eventN code arg req).added = s.added := State.event_added _ _ _ _
@[simp] theorem State.eventN_draws (code arg req : Nat) : (s.eventN code arg req).draws = s.draws := State.event_draws _ _ _ _

/-! `send` changes `sent` alone. -/

@[simp] theorem State.send_pending (m : Sent) : (s.send m).pending = s.pending := rfl
@[simp] theorem State.send_regs (m : Sent) : (s.send m).regs = s.regs := rfl
@[simp] theorem State.send_cores (m : Sent) : (s.send m).cores = s.cores := rfl
@[simp] theorem State.send_seat (m : Sent) : (s.send m).seat = s.seat := rfl
@[simp] theorem State.send_engines (m : Sent) : (s.send m).engines = s.engines := rfl
@[simp] theorem State.send_links (m : Sent) : (s.send m).links = s.links := rfl
@[simp] theorem State.send_host (m : Sent) : (s.send m).host = s.host := rfl
@[simp] theorem State.send_crix (m : Sent) : (s.send m).crix = s.crix := rfl
@[simp] theorem State.send_power (m : Sent) : (s.send m).power = s.power := rfl
@[simp] theorem State.send_heat (m : Sent) : (s.send m).heat = s.heat := rfl
@[simp] theorem State.send_boot (m : Sent) : (s.send m).boot = s.boot := rfl
@[simp] theorem State.send_sec (m : Sent) : (s.send m).sec = s.sec := rfl
@[simp] theorem State.send_hubQueue (m : Sent) : (s.send m).hubQueue = s.hubQueue := rfl
@[simp] theorem State.send_guarded (m : Sent) : (s.send m).guarded = s.guarded := rfl
@[simp] theorem State.send_added (m : Sent) : (s.send m).added = s.added := rfl
@[simp] theorem State.send_draws (m : Sent) : (s.send m).draws = s.draws := rfl

/-! `append` changes `boot` alone. -/

@[simp] theorem State.append_pending (rs : List LedgerRec) : (s.append rs).pending = s.pending := rfl
@[simp] theorem State.append_regs (rs : List LedgerRec) : (s.append rs).regs = s.regs := rfl
@[simp] theorem State.append_cores (rs : List LedgerRec) : (s.append rs).cores = s.cores := rfl
@[simp] theorem State.append_seat (rs : List LedgerRec) : (s.append rs).seat = s.seat := rfl
@[simp] theorem State.append_engines (rs : List LedgerRec) : (s.append rs).engines = s.engines := rfl
@[simp] theorem State.append_links (rs : List LedgerRec) : (s.append rs).links = s.links := rfl
@[simp] theorem State.append_host (rs : List LedgerRec) : (s.append rs).host = s.host := rfl
@[simp] theorem State.append_crix (rs : List LedgerRec) : (s.append rs).crix = s.crix := rfl
@[simp] theorem State.append_power (rs : List LedgerRec) : (s.append rs).power = s.power := rfl
@[simp] theorem State.append_heat (rs : List LedgerRec) : (s.append rs).heat = s.heat := rfl
@[simp] theorem State.append_sec (rs : List LedgerRec) : (s.append rs).sec = s.sec := rfl
@[simp] theorem State.append_hubQueue (rs : List LedgerRec) : (s.append rs).hubQueue = s.hubQueue := rfl
@[simp] theorem State.append_sent (rs : List LedgerRec) : (s.append rs).sent = s.sent := rfl
@[simp] theorem State.append_guarded (rs : List LedgerRec) : (s.append rs).guarded = s.guarded := rfl
@[simp] theorem State.append_added (rs : List LedgerRec) : (s.append rs).added = s.added := rfl
@[simp] theorem State.append_draws (rs : List LedgerRec) : (s.append rs).draws = s.draws := rfl

/-! `activity` changes `power` alone. -/

@[simp] theorem State.activity_pending (p : PCore) (i : Fin 12) (n : Nat) : (s.activity p i n).pending = s.pending := State.setPower_pending _ _ _
@[simp] theorem State.activity_regs (p : PCore) (i : Fin 12) (n : Nat) : (s.activity p i n).regs = s.regs := State.setPower_regs _ _ _
@[simp] theorem State.activity_cores (p : PCore) (i : Fin 12) (n : Nat) : (s.activity p i n).cores = s.cores := State.setPower_cores _ _ _
@[simp] theorem State.activity_seat (p : PCore) (i : Fin 12) (n : Nat) : (s.activity p i n).seat = s.seat := State.setPower_seat _ _ _
@[simp] theorem State.activity_engines (p : PCore) (i : Fin 12) (n : Nat) : (s.activity p i n).engines = s.engines := State.setPower_engines _ _ _
@[simp] theorem State.activity_links (p : PCore) (i : Fin 12) (n : Nat) : (s.activity p i n).links = s.links := State.setPower_links _ _ _
@[simp] theorem State.activity_host (p : PCore) (i : Fin 12) (n : Nat) : (s.activity p i n).host = s.host := State.setPower_host _ _ _
@[simp] theorem State.activity_crix (p : PCore) (i : Fin 12) (n : Nat) : (s.activity p i n).crix = s.crix := State.setPower_crix _ _ _
@[simp] theorem State.activity_heat (p : PCore) (i : Fin 12) (n : Nat) : (s.activity p i n).heat = s.heat := State.setPower_heat _ _ _
@[simp] theorem State.activity_boot (p : PCore) (i : Fin 12) (n : Nat) : (s.activity p i n).boot = s.boot := State.setPower_boot _ _ _
@[simp] theorem State.activity_sec (p : PCore) (i : Fin 12) (n : Nat) : (s.activity p i n).sec = s.sec := State.setPower_sec _ _ _
@[simp] theorem State.activity_hubQueue (p : PCore) (i : Fin 12) (n : Nat) : (s.activity p i n).hubQueue = s.hubQueue := State.setPower_hubQueue _ _ _
@[simp] theorem State.activity_sent (p : PCore) (i : Fin 12) (n : Nat) : (s.activity p i n).sent = s.sent := State.setPower_sent _ _ _
@[simp] theorem State.activity_guarded (p : PCore) (i : Fin 12) (n : Nat) : (s.activity p i n).guarded = s.guarded := State.setPower_guarded _ _ _
@[simp] theorem State.activity_added (p : PCore) (i : Fin 12) (n : Nat) : (s.activity p i n).added = s.added := State.setPower_added _ _ _
@[simp] theorem State.activity_draws (p : PCore) (i : Fin 12) (n : Nat) : (s.activity p i n).draws = s.draws := State.setPower_draws _ _ _

/-! ### Registers -/

@[simp] theorem State.reg_setReg_same (a : Nat) (v : W64) : (s.setReg a v).reg a = v := Tab.get_put_same _ _ _ _

theorem State.reg_setReg_other {a b : Nat} (v : W64) (h : b ≠ a) : (s.setReg a v).reg b = s.reg b :=
  Tab.get_put_other _ _ _ _ h

@[simp] theorem State.reg_wr_same (a hi lo v : Nat) : (s.wr a hi lo v).reg a = setFld (s.reg a) hi lo v :=
  s.reg_setReg_same a _

theorem State.reg_wr_other {a b : Nat} (hi lo v : Nat) (h : b ≠ a) : (s.wr a hi lo v).reg b = s.reg b :=
  s.reg_setReg_other _ h

theorem State.reg_congr {s t : State} (h : s.regs = t.regs) (a : Nat) : s.reg a = t.reg a := by
  simp [State.reg, h]

theorem State.rd_congr {s t : State} (h : s.regs = t.regs) (a hi lo : Nat) : s.rd a hi lo = t.rd a hi lo := by
  simp [State.rd, State.reg, h]

/-! ### Cores, links, engines, towers -/

theorem State.core_congr {s t : State} (h : s.cores = t.cores) (p : PCore) : s.core p = t.core p := by
  simp [State.core, h]

@[simp] theorem State.core_setCore_same (p : PCore) (c : Core) : (s.setCore p c).core p = c := by
  simp [State.core, State.setCore]

theorem State.core_setCore_other {p q : PCore} (c : Core) (h : q ≠ p) : (s.setCore p c).core q = s.core q := by
  have : p.val ≠ q.val := fun e => h (Fin.ext e.symm)
  simp [State.core, State.setCore, this]

@[simp] theorem State.link_setLink_same (l : LinkIx) (x : Link) : (s.setLink l x).link l = x := by
  simp [State.link, State.setLink]

theorem State.link_setLink_other {l m : LinkIx} (x : Link) (h : m ≠ l) : (s.setLink l x).link m = s.link m := by
  have : l.val ≠ m.val := fun e => h (Fin.ext e.symm)
  simp [State.link, State.setLink, this]

@[simp] theorem State.engine_setEngine_same (e : EngIx) (x : Engine) : (s.setEngine e x).engine e = x := by
  simp [State.engine, State.setEngine]

@[simp] theorem State.towerPower_setPower_same (t : Tower) (x : TowerPower) : (s.setPower t x).towerPower t = x := by
  simp [State.towerPower, State.setPower]

@[simp] theorem State.towerHeat_setHeat_same (t : Tower) (x : TowerHeat) : (s.setHeat t x).towerHeat t = x := by
  simp [State.towerHeat, State.setHeat]

/-! ### A step applied to each of a list -/

@[simp] theorem State.each_nil {α : Type} (f : State → α → State) : s.each [] f = s := rfl

@[simp] theorem State.each_cons {α : Type} (x : α) (xs : List α) (f : State → α → State) :
    s.each (x :: xs) f = (f s x).each xs f := rfl

/-- A property that every application keeps, all of them keep. -/
theorem State.each_keeps {α : Type} (P : State → Prop) (xs : List α) (f : State → α → State)
    (h : ∀ u x, P u → P (f u x)) : ∀ s, P s → P (s.each xs f) := by
  induction xs with
  | nil => intro s hs; exact hs
  | cons x xs ih => intro s hs; exact ih _ (h s x hs)

/-- A part of the state that every application leaves, all of them leave. -/
theorem State.each_same {α β : Type} (g : State → β) (xs : List α) (f : State → α → State)
    (h : ∀ u x, g (f u x) = g u) (s : State) : g (s.each xs f) = g s := by
  induction xs generalizing s with
  | nil => rfl
  | cons x xs ih => rw [State.each_cons, ih, h]

end Sys2Proof.Machine
end

