-- ==== Sys2Proof/Laws/Issue.lean ====
section
/-! SUPPORT. What the issue of an instruction can do (04 R71, R72, R84): when it happens it begins the bundle, counts, may
tag a sample, and leaves every register and memory of the module as it was. -/

namespace Sys2Proof.Machine

/-! ### Cores alike -/

theorem Core.Like.refl (c : Core) : c.Like c := ⟨rfl, fun _ => rfl, fun _ => rfl, fun _ => rfl, fun _ => rfl⟩

theorem Core.Like.trans {a b c : Core} (h : a.Like b) (g : b.Like c) : a.Like c :=
  ⟨h.kept.trans g.kept, fun x => (h.scratch x).trans (g.scratch x), fun x => (h.tags x).trans (g.tags x),
   fun x => (h.hand x).trans (g.hand x), fun x => (h.vault x).trans (g.vault x)⟩

theorem Core.Like.regs {c d : Core} (h : c.Like d) : c.regs = d.regs := by
  have g : c.kept.regs = d.kept.regs := by rw [h.kept]
  exact g

/-! ### Steps of one core -/

variable {s t u : State} {p : PCore} {w : List Nat} {d : Core}

/-- Bookkeeping: nothing but counters and the core's fetch state differ. -/
abbrev Quiet (s t : State) (p : PCore) : Prop := CoreStep s t p [] (s.core p)

theorem CoreStep.refl (s : State) (p : PCore) (w : List Nat) : CoreStep s s p w (s.core p) :=
  ⟨Core.Like.refl _, fun _ _ => rfl, fun _ _ _ => rfl, fun x _ => by cases x <;> first | rfl | exact ⟨rfl, rfl⟩, fun _ => rfl⟩

theorem Piece.same_trans {x : Piece} (h : x.same s t) (g : x.same t u) : x.same s u := by
  cases x <;> first | exact Eq.trans g h | exact ⟨g.1.trans h.1, g.2.trans h.2⟩

theorem SamePower.trans (h : SamePower s t) (g : SamePower t u) : SamePower s u := by
  intro w
  have h1 := h w
  have h2 := g w
  rw [← h1, ← h2]

/-- Bookkeeping before a step is part of the step. -/
theorem CoreStep.after (q : Quiet s t p) (h : CoreStep t u p w d) : CoreStep s u p w d where
  core := h.core
  others := fun x hx => (h.others x hx).trans (q.others x hx)
  regs := fun a ha hc => (h.regs a ha hc).trans (q.regs a (List.not_mem_nil) hc)
  pieces := fun x hx => Piece.same_trans (q.pieces x hx) (h.pieces x hx)
  power := SamePower.trans q.power h.power

/-- Bookkeeping after a step is part of the step. -/
theorem CoreStep.quiet (h : CoreStep s t p w d) (q : Quiet t u p) : CoreStep s u p w d where
  core := q.core.trans h.core
  others := fun x hx => (q.others x hx).trans (h.others x hx)
  regs := fun a ha hc => (q.regs a (List.not_mem_nil) hc).trans (h.regs a ha hc)
  pieces := fun x hx => Piece.same_trans (h.pieces x hx) (q.pieces x hx)
  power := SamePower.trans h.power q.power

theorem Quiet.trans (h : Quiet s t p) (q : Quiet t u p) : Quiet s u p := CoreStep.quiet h q

/-! ### The updates a step is made of -/

theorem setReg_step (s : State) (p : PCore) {w : List Nat} (a : Nat) (v : W64) (h : a ∈ w ∨ a ∈ coreCounters p) :
    CoreStep s (s.setReg a v) p w (s.core p) where
  core := by rw [State.core_congr (State.setReg_cores s a v)]; exact Core.Like.refl _
  others := fun q _ => State.core_congr (State.setReg_cores s a v) q
  regs := fun b hb hc => State.reg_setReg_other s v (fun e => h.elim (fun m => hb (e ▸ m)) (fun m => hc (e ▸ m)))
  pieces := fun x _ => by cases x <;> first | rfl | exact ⟨rfl, rfl⟩
  power := fun _ => rfl

theorem setCore_step (s : State) (p : PCore) (w : List Nat) (c : Core) : CoreStep s (s.setCore p c) p w c where
  core := by rw [State.core_setCore_same]; exact Core.Like.refl _
  others := fun q hq => State.core_setCore_other s c (by simpa using hq)
  regs := fun b _ _ => State.reg_congr (State.setCore_regs s p c) b
  pieces := fun x _ => by cases x <;> first | rfl | exact ⟨rfl, rfl⟩
  power := fun _ => rfl

theorem setCore_quiet (s : State) (p : PCore) {c : Core} (h : c.Like (s.core p)) : Quiet s (s.setCore p c) p :=
  { setCore_step s p [] c with core := by rw [State.core_setCore_same]; exact h }

theorem mapRegs_step (s : State) (p : PCore) (w : List Nat) (f : RegFile → RegFile) :
    CoreStep s (s.mapRegs p f) p w { s.core p with regs := f (s.core p).regs } := setCore_step _ _ _ _

/-! ### Counting -/

theorem wr_quiet (s : State) (p : PCore) (a hi lo v : Nat) (h : a ∈ coreCounters p) : Quiet s (s.wr a hi lo v) p :=
  setReg_step s p a _ (.inr h)

/-- What a command notes of the present cycle is bookkeeping. -/
theorem notes_quiet (s : State) (p : PCore) {t : State} (hr : t.regs = s.regs) (hc : t.cores = s.cores)
    (hp : t.power = s.power) (h : ∀ x ∉ [Piece.power, Piece.notes], x.same s t) : Quiet s t p where
  core := by rw [State.core_congr hc]; exact Core.Like.refl _
  others := fun q _ => State.core_congr hc q
  regs := fun b _ _ => State.reg_congr hr b
  pieces := h
  power := fun w => by simp [State.towerPower, hp]

theorem protect_quiet (s : State) (p : PCore) (a : Nat) (m : W64) : Quiet s (s.protect a m) p :=
  notes_quiet s p rfl rfl rfl fun x hx => by cases x <;> first | rfl | simp at hx

theorem flag_quiet (s : State) (p : PCore) (a i : Nat) (h : a ∈ coreCounters p) : Quiet s (s.flag a i) p :=
  CoreStep.quiet (setReg_step s p a _ (.inr h)) (protect_quiet _ p _ _)

theorem addTo_quiet (s : State) (p : PCore) (b : Bump) (h : b.reg ∈ coreCounters p)
    (ho : ∀ o, b.ovf = some o → o.1 ∈ coreCounters p) : Quiet s (s.addTo b) p := by
  unfold State.addTo
  dsimp only
  split
  · exact wr_quiet s p _ _ _ _ h
  · next o he =>
    split
    · exact wr_quiet s p _ _ _ _ h
    · exact (wr_quiet s p _ _ _ _ h).trans (flag_quiet _ p _ _ (ho o he))

theorem bump_quiet (s : State) (p : PCore) (b : Bump) (h : b.reg ∈ coreCounters p)
    (ho : ∀ o, b.ovf = some o → o.1 ∈ coreCounters p) : Quiet s (s.bump b) p :=
  (addTo_quiet s p b h ho).trans
    (notes_quiet _ p rfl rfl rfl fun x hx => by cases x <;> first | rfl | simp at hx)

theorem count_quiet (s : State) (p : PCore) (a hi lo n : Nat) (h : a ∈ coreCounters p) : Quiet s (s.count a hi lo n) p :=
  bump_quiet s p _ h fun _ he => nomatch he

theorem fixed_mem (p : PCore) {i : Nat} (h : i < 16) : Reg.PMU_FIXED p i ∈ coreCounters p :=
  List.mem_append_left _ (List.mem_map_of_mem (List.mem_range.2 h))

theorem prog_mem (p : PCore) {k : Nat} (h : k < 8) : Reg.PMU_PROG p k ∈ coreCounters p :=
  List.mem_append_right _ (List.mem_append_left _ (List.mem_map_of_mem (List.mem_range.2 h)))

theorem ovf_mem (p : PCore) : Reg.PMU_OVF p ∈ coreCounters p :=
  List.mem_append_right _ (List.mem_append_right _ (List.mem_cons_self ..))

theorem sampleStat_mem (p : PCore) : Reg.PMU_SAMPLE_STAT p ∈ coreCounters p :=
  List.mem_append_right _ (List.mem_append_right _ (List.mem_cons_of_mem _ (List.mem_cons_self ..)))

theorem tally_quiet (s : State) (p : PCore) (a k n : Nat) (h : a ∈ coreCounters p) :
    Quiet s (s.tally a (Reg.PMU_OVF p) k n) p :=
  bump_quiet s p _ h fun _ he => by cases he; exact ovf_mem p

theorem fixed_quiet (s : State) (p : PCore) {i : Nat} (n : Nat) (h : i < 16) : Quiet s (s.fixed p i n) p := by
  unfold State.fixed
  split
  · exact tally_quiet s p _ i n (fixed_mem p h)
  · exact CoreStep.refl s p []

theorem foldl_quiet {α : Type} (p : PCore) (f : State → α → State) (xs : List α)
    (h : ∀ s, ∀ x ∈ xs, Quiet s (f s x) p) : ∀ s, Quiet s (xs.foldl f s) p := by
  induction xs with
  | nil => intro s; exact CoreStep.refl s p []
  | cons x xs ih =>
    intro s
    exact (h s x (List.mem_cons_self ..)).trans (ih (fun s y hy => h s y (List.mem_cons_of_mem _ hy)) _)

theorem pmu_quiet (s : State) (p : PCore) (evt : Nat) (n : Nat → Nat) : Quiet s (s.pmu p evt n) p := by
  unfold State.pmu
  split
  · refine foldl_quiet p _ _ (fun s k hk => ?_) s
    dsimp only
    split
    · exact tally_quiet s p _ _ _ (prog_mem p (List.mem_range.1 hk))
    · exact CoreStep.refl s p []
  · exact CoreStep.refl s p []

theorem activity_quiet (s : State) (p : PCore) (i : Fin 12) (n : Nat) : Quiet s (s.activity p i n) p where
  core := by rw [State.core_congr (State.activity_cores s p i n)]; exact Core.Like.refl _
  others := fun q _ => State.core_congr (State.activity_cores s p i n) q
  regs := fun b _ _ => State.reg_congr (State.activity_regs s p i n) b
  pieces := fun x hx => by
    cases x <;> first | exact absurd (List.mem_cons_self ..) hx | rfl | exact ⟨rfl, rfl⟩
  power := fun w => by
    by_cases e : w = towerOf p
    · subst e
      simp [State.activity]
    · have : (s.activity p i n).towerPower w = s.towerPower w := by
        have : (towerOf p).val ≠ w.val := fun h => e (Fin.ext h.symm)
        simp [State.activity, State.towerPower, State.setPower, this]
      rw [this]

theorem scratched_quiet (s : State) (p : PCore) (slot n : Nat) : Quiet s (s.scratched p slot n) p :=
  (pmu_quiet s p _ _).trans (activity_quiet _ p _ _)

/-! ### Fetch, sampling, issue -/

theorem setMask_quiet (s : State) (p : PCore) (m : Option (BitVec 4)) :
    Quiet s (s.setCore p { s.core p with slotMask := m }) p :=
  setCore_quiet s p ⟨rfl, fun _ => rfl, fun _ => rfl, fun _ => rfl, fun _ => rfl⟩

theorem flushIssue_quiet (s : State) (p : PCore) : Quiet s (s.flushIssue p) p := by
  unfold State.flushIssue
  split
  · exact CoreStep.refl s p []
  · refine Quiet.trans ?_ (setMask_quiet _ p none)
    exact ((((fixed_quiet s p _ (by decide)).trans (fixed_quiet _ p _ (by decide))).trans
      (fixed_quiet _ p _ (by decide))).trans (fixed_quiet _ p _ (by decide))).trans (activity_quiet _ p _ _)

theorem beginBundle_quiet (s : State) (p : PCore) (due : List (Nat × W64)) : Quiet s (s.beginBundle p due) p :=
  (flushIssue_quiet s p).trans (setCore_quiet _ p ⟨rfl, fun _ => rfl, fun _ => rfl, fun _ => rfl, fun _ => rfl⟩)

theorem setDue_quiet (s : State) (p : PCore) (l : List (Nat × W64)) :
    Quiet s (s.setCore p { s.core p with due := l }) p :=
  setCore_quiet s p ⟨rfl, fun _ => rfl, fun _ => rfl, fun _ => rfl, fun _ => rfl⟩

theorem hold_quiet (s : State) (p : PCore) (w : Waiting) : Quiet s (s.hold p w) p :=
  setCore_quiet s p ⟨rfl, fun _ => rfl, fun _ => rfl, fun _ => rfl, fun _ => rfl⟩

theorem sampleIssue_quiet (s : State) (p : PCore) (slot op : Nat) : Quiet s (s.sampleIssue p slot op) p := by
  unfold State.sampleIssue
  dsimp only
  generalize (if (s.core p).countdown = 0 then s.rd (Reg.PMU_SAMPLE_CTL p) 23 0 else (s.core p).countdown) = n
  split
  · split
    · exact setCore_quiet s p ⟨rfl, fun _ => rfl, fun _ => rfl, fun _ => rfl, fun _ => rfl⟩
    · split
      · refine Quiet.trans ?_ (count_quiet _ p _ _ _ _ (sampleStat_mem p))
        exact setCore_quiet s p ⟨rfl, fun _ => rfl, fun _ => rfl, fun _ => rfl, fun _ => rfl⟩
      · refine Quiet.trans ?_ (wr_quiet _ p _ _ _ _ (sampleStat_mem p))
        exact setCore_quiet s p ⟨rfl, fun _ => rfl, fun _ => rfl, fun _ => rfl, fun _ => rfl⟩
  · exact CoreStep.refl s p []

theorem noteAddr_quiet (s : State) (p : PCore) (slot space : Nat) (a : W64) : Quiet s (s.noteAddr p slot space a) p := by
  unfold State.noteAddr
  dsimp only
  split
  · split
    · exact setCore_quiet s p ⟨rfl, fun _ => rfl, fun _ => rfl, fun _ => rfl, fun _ => rfl⟩
    · exact CoreStep.refl s p []
  · exact CoreStep.refl s p []

theorem noteIssue_quiet (s : State) (p : PCore) (slot op : Nat) : Quiet s (s.noteIssue p slot op) p := by
  unfold State.noteIssue
  dsimp only
  refine Quiet.trans ?_ (sampleIssue_quiet _ p slot op)
  refine Quiet.trans ?_ (activity_quiet _ p _ _)
  refine Quiet.trans ?_ (pmu_quiet _ p _ _)
  exact setMask_quiet s p _

/-- The state in which an instruction that issues takes effect: its bundle has begun, or it is due no longer. -/
def State.begun (s : State) (k : At) (slot : Nat) (word : W64) : State :=
  if k.lead then
    s.issued k.core slot ((s.core k.core).fetched slot word) (s.readyBundle k.core ((s.core k.core).fetched slot word))
  else s.followed k.core slot word

/-- A bundle that has no deadline and waits for no trick is never detected late. -/
theorem detect_held (s : State) (p : PCore) (w : Waiting) (hd : w.deadline = none) (ht : w.tbar = none) :
    (s.hold p w).detect p = s.hold p w := by
  have hr : (s.hold p w).readyOf p = some w := by
    unfold State.readyOf State.hold
    dsimp only
    rw [State.core_setCore_same]
  have hm : ∀ a b, w.missed a b = none := by
    intro a b
    unfold Waiting.missed
    split
    · rfl
    · rw [ht, hd]
  unfold State.detect
  rw [hr]
  simp only [hm]

/-- A slot word opens its bundle without a release: it is no TIME and no TBAR. -/
def Plain (slot : Nat) (word : W64) : Prop := slot < 4 ∧ (slot = 0 → slotOp word ≠ 0x70 ∧ slotOp word ≠ 0x71)

theorem slotOp_zero : slotOp 0 = 0 := by decide

theorem getD_zero_of_take {ws : List W64} {n : Nat} (h : (ws.take (n + 1)).all (· == 0) = true) : ws.getD 0 0 = 0 := by
  cases ws with
  | nil => rfl
  | cons a l =>
    simp only [List.take_succ_cons, List.all_cons, Bool.and_eq_true, beq_iff_eq] at h
    exact h.1

/-- Slot 0 of the bundle that an instruction begins. -/
theorem fetched_zero (c : Core) {slot : Nat} {word : W64} (h : slot < 4) :
    (c.fetched slot word).getD 0 0 = if slot = 0 then word else 0 := by
  unfold Core.fetched
  generalize c.bundleWords c.next = ws
  dsimp only
  split
  · next g =>
    cases slot with
    | zero => exact g.1
    | succ n => exact getD_zero_of_take g.2
  · cases slot <;> simp [List.range, List.range.loop]

/-- A bundle opened without a release has no earliest cycle, no deadline and no trick to wait for. -/
theorem readyBundle_plain (s : State) (k : At) {slot : Nat} {word : W64} (h : Plain slot word) :
    (s.readyBundle k.core ((s.core k.core).fetched slot word)).earliest = none ∧
    (s.readyBundle k.core ((s.core k.core).fetched slot word)).deadline = none ∧
    (s.readyBundle k.core ((s.core k.core).fetched slot word)).tbar = none := by
  have ho : slotOp (((s.core k.core).fetched slot word).getD 0 0) ≠ 0x70 ∧
      slotOp (((s.core k.core).fetched slot word).getD 0 0) ≠ 0x71 := by
    rw [fetched_zero _ h.1]
    split
    · next e => exact h.2 e
    · rw [slotOp_zero]; decide
  unfold State.readyBundle
  simp only [ho.1, ho.2, false_and, if_false, and_self]

/-- The issue of an instruction is bookkeeping alone. -/
theorem begun_quiet (s : State) (k : At) {slot : Nat} {word : W64} (h : Plain slot word) :
    Quiet s (s.begun k slot word) k.core := by
  have r := readyBundle_plain s k h
  unfold State.begun
  split
  · unfold State.issued
    rw [detect_held _ _ _ r.2.1 r.2.2]
    exact ((hold_quiet s k.core _).trans (beginBundle_quiet _ k.core _)).trans (noteIssue_quiet _ k.core _ _)
  · exact (setDue_quiet s k.core _).trans (noteIssue_quiet _ k.core _ _)

theorem fixed_cores (s : State) (p : PCore) (i n : Nat) : (s.fixed p i n).cores = s.cores := by
  unfold State.fixed
  split
  · exact State.tally_cores _ _ _ _ _
  · rfl

theorem foldl_cores {α : Type} (f : State → α → State) (xs : List α) (h : ∀ s x, (f s x).cores = s.cores) :
    ∀ s, (xs.foldl f s).cores = s.cores := by
  induction xs with
  | nil => intro s; rfl
  | cons x xs ih => intro s; exact (ih _).trans (h s x)

theorem pmu_cores (s : State) (p : PCore) (evt : Nat) (n : Nat → Nat) : (s.pmu p evt n).cores = s.cores := by
  unfold State.pmu
  split
  · refine foldl_cores _ _ (fun s k => ?_) s
    dsimp only
    split
    · exact State.tally_cores _ _ _ _ _
    · rfl
  · rfl

theorem sampleIssue_src (s : State) (p : PCore) (slot op : Nat) : ((s.sampleIssue p slot op).core p).src = (s.core p).src := by
  unfold State.sampleIssue
  dsimp only
  generalize (if (s.core p).countdown = 0 then s.rd (Reg.PMU_SAMPLE_CTL p) 23 0 else (s.core p).countdown) = n
  split
  · split
    · rw [State.core_setCore_same]
    · split
      · rw [State.core_congr (State.count_cores _ _ _ _ _), State.core_setCore_same]
      · rw [State.core_congr (State.wr_cores _ _ _ _ _), State.core_setCore_same]
  · rfl

theorem noteIssue_src (s : State) (p : PCore) (slot op : Nat) : ((s.noteIssue p slot op).core p).src = (s.core p).src := by
  unfold State.noteIssue
  dsimp only
  rw [sampleIssue_src, State.core_congr (State.activity_cores _ _ _ _), State.core_congr (pmu_cores _ _ _ _),
    State.core_setCore_same]

theorem flushIssue_regs (s : State) (p : PCore) : ((s.flushIssue p).core p).regs = (s.core p).regs := by
  exact (flushIssue_quiet s p).core.regs

theorem beginBundle_src (s : State) (p : PCore) (due : List (Nat × W64)) :
    ((s.beginBundle p due).core p).src = (s.core p).regs := by
  unfold State.beginBundle
  dsimp only
  rw [State.core_setCore_same]
  exact flushIssue_regs s p

/-- The registers that an issued instruction reads: those of its bundle's start (R71). -/
theorem begun_src (s : State) (k : At) {slot : Nat} {word : W64} (h : Plain slot word) :
    (s.begun k slot word).src k.core = s.view k := by
  have r := readyBundle_plain s k h
  unfold State.begun State.src State.view
  cases k.lead with
  | true =>
    simp only [if_true]
    unfold State.issued
    rw [detect_held _ _ _ r.2.1 r.2.2, noteIssue_src, beginBundle_src]
    exact (hold_quiet s k.core _).core.regs
  | false =>
    simp only [Bool.false_eq_true, if_false]
    unfold State.followed
    rw [noteIssue_src, State.core_setCore_same]

/-- An instruction that fits, and that nothing of its own keeps waiting, takes effect. -/
theorem issue_eq {k : At} {slot : Nat} {word : W64} {eff : State → State} (h : s.fits k slot word = true)
    (hp : Plain slot word) : s.issue k slot word none eff = eff (s.begun k slot word) := by
  have r := readyBundle_plain s k hp
  unfold State.fits at h
  unfold State.issue State.begun
  cases hl : k.lead with
  | false =>
    simp only [hl, Bool.false_eq_true, if_false, beq_iff_eq] at h ⊢
    rw [if_pos h]
  | true =>
    simp only [hl, if_true, Bool.and_eq_true, decide_eq_true_eq, Option.isNone_iff_eq_none, Bool.not_eq_true'] at h
    obtain ⟨⟨⟨⟨h1, h2⟩, h3⟩, h4⟩, h5⟩ := h
    simp only [if_true, h1]
    unfold State.lead
    dsimp only
    rw [if_neg (by omega), h3]
    have hs : s.stall k.core slot ((s.core k.core).fetched slot word) none
        (s.readyBundle k.core ((s.core k.core).fetched slot word)) = none := by
      have hc : ((List.range 4).filterMap fun j => if j = slot then none
          else s.slotCause k.core j (((s.core k.core).fetched slot word).getD j 0)) = [] := by
        rw [List.filterMap_eq_nil_iff]
        intro j hj
        have g := List.all_eq_true.1 h5 j hj
        split
        · rfl
        · next hn => simpa [hn] using g
      unfold State.stall Waiting.holds
      dsimp only
      rw [h4, r.1, r.2.2, hc]
      rfl
    rw [hs]

/-! ### Results in scalar and predicate registers -/

theorem Core.Like.setRegs {c d : Core} (h : c.Like d) (r : RegFile) : ({ c with regs := r } : Core).Like { d with regs := r } where
  kept := by
    have g : ({ c.kept with regs := r } : Core) = { d.kept with regs := r } := by rw [h.kept]
    exact g
  scratch := h.scratch
  tags := h.tags
  hand := h.hand
  vault := h.vault

theorem mapRegs_after (q : Quiet s u p) (f : RegFile → RegFile) :
    CoreStep s (u.mapRegs p f) p w { s.core p with regs := f (s.core p).regs } := by
  have m := mapRegs_step u p w f
  have e := q.core.setRegs (f (u.core p).regs)
  rw [q.core.regs] at e m
  exact CoreStep.after q { m with core := m.core.trans e }

/-- A scalar result is all that an instruction of that shape does. -/
theorem putScalar_step (q : Quiet s u p) (g : Guard) (sd : SReg) (v : W64) (tag : Bool) :
    CoreStep s (u.putScalar p g sd v tag) p w { s.core p with regs := g.scalar (s.core p).regs sd v tag } := by
  cases g with
  | poisoned => exact mapRegs_after q fun r => r.sTaint sd
  | off => exact CoreStep.after q ⟨q.core, fun _ _ => rfl, fun _ _ _ => rfl, fun x _ => by cases x <;> first | rfl | exact ⟨rfl, rfl⟩, fun _ => rfl⟩
  | on => exact mapRegs_after q fun r => r.sPut sd v tag

/-- A predicate result is all that an instruction of that shape does. -/
theorem putPred_step (q : Quiet s u p) (g : Guard) (pd : PReg) (v : PredBits) (tag : Bool) :
    CoreStep s (u.putPred p g pd v tag) p w { s.core p with regs := g.pred (s.core p).regs pd v tag } := by
  cases g with
  | poisoned => exact mapRegs_after q fun r => r.pTaint pd
  | off => exact CoreStep.after q ⟨q.core, fun _ _ => rfl, fun _ _ _ => rfl, fun x _ => by cases x <;> first | rfl | exact ⟨rfl, rfl⟩, fun _ => rfl⟩
  | on => exact mapRegs_after q fun r => r.pPut pd v tag

theorem scalarOp_step {k : At} {word : W64} (pg : PReg) (sd : SReg) (res : RegFile → W64 × Bool)
    (h : s.fits k 0 word = true) (hp : Plain 0 word) :
    CoreStep s (s.scalarOp k word pg sd res) k.core w (scalarCore s k pg sd (res (s.view k)).1 (res (s.view k)).2) := by
  unfold State.scalarOp
  rw [issue_eq h hp]
  dsimp only
  rw [begun_src s k hp]
  exact putScalar_step (begun_quiet s k hp) _ _ _ _

theorem predOp_step {k : At} {word : W64} (pg pd : PReg) (res : RegFile → PredBits × Bool)
    (h : s.fits k 0 word = true) (hp : Plain 0 word) :
    CoreStep s (s.predOp k word pg pd res) k.core w (predCore s k pg pd (res (s.view k)).1 (res (s.view k)).2) := by
  unfold State.predOp
  rw [issue_eq h hp]
  dsimp only
  rw [begun_src s k hp]
  exact putPred_step (begun_quiet s k hp) _ _ _ _

end Sys2Proof.Machine
end

