-- ==== Sys2Proof/Tests/Slice0.lean ====
section
/-! SUPPORT. Small tests: terms that WellFormed refuses, results that the spec states, and for each statement of the
obligations states and operands that meet its hypotheses together. -/

set_option Elab.async false

namespace Sys2Proof.Tests

open Sys2Proof.Machine Sys2Proof.Claims

/-! ### WellFormed refuses -/

theorem test_wf_sensorSample : Instr.wellFormed (.sensorSample []) = false := by decide
theorem test_wf_sensorSample_inner : Instr.wellFormed (.sensorSample [[], [], [], []]) = false := by decide
theorem test_wf_forecastRun : Instr.wellFormed (.forecastRun [(0, 0, 0)]) = false := by decide
theorem test_wf_railGood : Instr.wellFormed (.railGoodAsserted 31 [0, 0, 0]) = false := by decide
theorem test_wf_trimStage : Instr.wellFormed (.trimStage [[], []] true) = false := by decide
theorem test_wf_trimStage_inner : Instr.wellFormed (.trimStage [[1], [1], [1], [1]] true) = false := by decide
theorem test_wf_trimMeasure : Instr.wellFormed (.trimMeasure 0 ⟨[1, -1], false⟩) = false := by decide
theorem test_wf_powerOnReset : Instr.wellFormed (.powerOnReset true ⟨[], true⟩) = false := by decide
theorem test_wf_mgmt : Instr.wellFormed (.mgmt 0 0 0 none 101) = false := by decide
theorem test_wf_subqWake : Instr.wellFormed (.subqWake 1 [{ desc := 0, payload := none, load := 101 }]) = false := by decide
theorem test_wf_registerWrite : Instr.wellFormed (.registerWrite 0 9 0) = false := by decide
theorem test_wf_debugWrite : Instr.wellFormed (.debugWrite none 0 0 0) = false := by decide
theorem test_wf_pwrRailFault : Instr.wellFormed (.pwrRailFault 0) = false := by decide
theorem test_wf_accepts : Instr.wellFormed (.tlLink 16) = true ∧ Instr.wellFormed (.trimMeasure 0 ⟨List.replicate 10 0, false⟩) = true := by
  decide

/-- The rows of the table give no bits, so no word spells a command. -/
theorem test_decode_none : decodeTableWord 64 0 = none := by decide

/-! ### Small states -/

/-- The first instruction of a bundle of physical core 0. -/
def k0 : At := ⟨0, true⟩

/-- A deal of two tricks of 1,000 cycles for one seat. -/
def deal2 : Deal :=
  { seat := 0, xdim := 1, ydim := 1, zdim := 1, dummies := 0, nvar := 1, ntricks := 2, rubberCycles := 5000, kpm := 0,
    clocks := 7, holdWin := 0, replayLead := 500, nrubbers := 0, dealId := 9, seed := 0, digest := [],
    sections := [⟨0, 0xFFFF, .tricks [⟨1000, 1000, [0, 0, 0, 0]⟩, ⟨1000, 1000, [0, 0, 0, 0]⟩]⟩] }

/-- A seat in state n that holds that deal, with logical core 0 served by physical core 0, which is ON and in state c. -/
def seatIn (n c : Nat) : State :=
  let s := (((State.reset.wr Reg.TBL_STAT 3 0 n).wr (Reg.TBL_CORE_MAP 0 0) 7 0 128).wr (Reg.CORE_STAT 0) 3 0 c)
  { (s.wr (Reg.CORE_PWR 0) 5 0 0).wr (Reg.CORE_ID 0) 31 24 0 with seat := { Seat.reset with deal := some deal2 } }

/-- A rubber runs and so does core 0. -/
def playing : State := seatIn TS_RUNNING CS_RUNNING

/-- The same with some registers of core 0. -/
def withRegs (f : RegFile → RegFile) : State := playing.setCore 0 { playing.core 0 with regs := f (playing.core 0).regs }

/-- The state after a command, or the state before it if it stopped. -/
def after (s : State) (c : Instr) : State := match exec c s with | .next t => t | _ => s

/-- `Issues` as a Boolean, so that it can be decided. -/
def issuesB (s : State) (i : Instr) : Bool :=
  match slotWord i with
  | some x => s.fits x.1 x.2.1 x.2.2
  | none => false

theorem issues_iff (s : State) (i : Instr) : Issues s i ↔ issuesB s i = true := by
  unfold Issues issuesB
  cases slotWord i <;> simp

/-- An instruction of a bundle that has begun: it is due. -/
def followed : State := playing.setCore 0 { playing.core 0 with due := [(0, ((slotWord (.add ⟨0, false⟩ 0 3 1 2)).map (·.2.2)).getD 0)] }

theorem witness_issues : Issues playing (.add k0 0 3 1 2) ∧ Issues followed (.add ⟨0, false⟩ 0 3 1 2) := by
  simp only [issues_iff]; decide +kernel

theorem witness_scalar : (∀ row ∈ scalarTable k0 0 3 1 2, Issues playing row.1) ∧
    (∀ row ∈ scalarImmTable k0 0 3 1 (-1), Issues playing row.1) ∧
    (∀ row ∈ predTable k0 0 1 2 3 4 (playing.view k0), Issues playing row.1) ∧
    (∀ row ∈ selectTable k0 0 3 1 2 4 (-1) (playing.view k0), Issues playing row.1) := by
  simp only [issues_iff]; decide +kernel

theorem witness_control : (∀ row ∈ handVisible 0, Issues playing (.crd k0 0 1 row.1) ∧ Issues playing (.cwr k0 0 1 row.1)) ∧
    (∀ row ∈ counterTable playing, Issues playing (.ctr k0 0 1 row.1)) ∧
    (playing.guarded = [] ∧ ({ playing with guarded := [(Reg.CORE_NUM_FLAGS 0, 2)] } : State).guardedAt (Reg.CORE_NUM_FLAGS 0) = 2) := by
  simp only [issues_iff]
  exact ⟨by decide +kernel, List.all_eq_true.mp (by decide +kernel), by decide +kernel⟩

/-! ### Witnesses: the scalar slot -/

def v0 : VForm := ⟨0, 0, 0, 0, 0, 0, 0, 0, 0, false, 0⟩
def vx0 : VXForm := ⟨0, 0, 0, 0, 0, false, false, 0, 0, 0, 0⟩
def m0 : MForm := ⟨0, 0, 0, false, false, false, false, 0, 0, 0, 0, 0, 0⟩
def x0 : XForm := ⟨0, false, false, 0, 0, 0, 0, 0, 0⟩

theorem witness_controlTransfer : (6 : Fin 8) ≠ 7 ∧ (playing.view k0).pTag 0 = false ∧
    ∀ j ∈ jumpTable playing k0 0 6 1 2 5, Issues playing j.cmd ∧ (((playing.view k0).pGet 0).getLsbD 0 = true →
      (playing.view k0).sTag j.watch = false) := by simp only [issues_iff]; decide +kernel

theorem witness_scalarScratch : Issues playing (.lds k0 0 3 1 0x2FFFF8) ∧ Issues playing (.sts k0 0 3 1 0x2FFFF8) ∧ (playing.view k0).pTag 0 = false ∧ (playing.view k0).sTag 1 = false ∧
    ((playing.view k0).pGet 0).getLsbD 0 = true ∧ InScratch (scalarAddr (playing.view k0) 1 0x2FFFF8) 8 ∧
    (playing.core 0).readBusy (scalarAddr (playing.view k0) 1 0x2FFFF8, 8) = false ∧
    (playing.core 0).writeBusy (scalarAddr (playing.view k0) 1 0x2FFFF8, 8) = false := by
  simp only [issues_iff]; unfold InScratch; decide +kernel

theorem witness_release : Issues playing (.time k0 true true 0 0) ∧ Issues playing (.tbar k0 0) ∧ Issues playing (.rend k0) ∧
    (playing.core 0).readySince.getD playing.seat.trick = playing.seat.trick ∧ (playing.core 0).waiting = none ∧
    (0 : BitVec 24).toNat ≤ playing.seat.cycle.toNat ∧ playing.seat.cycle.toNat ≤ (0 : BitVec 24).toNat ∧
    playing.seat.trick.toNat = (0 : BitVec 24).toNat ∧ playing.seat.cycle = 0 := by simp only [issues_iff]; decide +kernel

theorem witness_releaseWaits : Issues playing (.time k0 true true 1 9) ∧ Issues playing (.tbar k0 1) ∧ k0.lead = true ∧ (playing.core 0).waiting = none ∧
    playing.seat.cycle.toNat < (1 : BitVec 24).toNat ∧ playing.seat.trick.toNat < (1 : BitVec 24).toNat := by
  simp only [issues_iff]; decide +kernel

/-! ### Witnesses: the vector slot -/

theorem witness_vectorInteger : (∀ row ∈ intTable k0 v0, Issues playing row.1) ∧ v0.w ≠ 3 ∧ v0.fmt = 0 ∧ v0.vc = 0 ∧ v0.rm = 0 ∧ v0.imm = 0 ∧ CleanB v0 := by
  simp only [issues_iff]; unfold CleanB; decide +kernel

theorem witness_vectorFloat : ∀ row ∈ floatTable k0 v0, Issues playing row.1 ∧ FloatClean v0 row.1 k0 := by
  simp only [issues_iff]; unfold FloatClean CleanB; decide +kernel

theorem witness_vectorFloat_stochastic : FloatClean { v0 with rm := 4 } (.vaddF k0 { v0 with rm := 4 }) k0 := by
  unfold FloatClean CleanB; decide +kernel

theorem witness_vectorCompare : v0.vd.val < 16 ∧ v0.vc = 0 ∧ v0.rm = 0 ∧ v0.imm = 0 ∧ CleanB v0 ∧
    ∀ row ∈ compareTable k0 v0, Issues playing row.1 ∧ (if row.2.1 then v0.fmt.toNat ≤ 2 ∧ v0.w = 0 else v0.fmt = 0 ∧ v0.w ≠ 3) := by
  simp only [issues_iff]; unfold CleanB; decide +kernel

theorem witness_vectorMove_issues : (∀ row ∈ moveTable k0 v0 (playing.view k0), Issues playing row.1) ∧
    Issues playing (.vext k0 { v0 with imm := 127 }) ∧ (∀ row ∈ reduceTable k0 v0, Issues playing row.1) := by
  refine ⟨?_, by simp only [issues_iff]; decide +kernel, ?_⟩
  all_goals
    intro row h
    simp only [moveTable, reduceTable, List.mem_cons, List.not_mem_nil, or_false] at h
    rcases h with rfl | rfl | rfl | rfl <;> simp only [issues_iff] <;> decide +kernel

theorem witness_vectorMove : (∀ row ∈ moveTable k0 v0 (playing.view k0), row.2.1) ∧
    ({ v0 with imm := 127 } : VForm).imm.toNat < 1024 / widthOfW 0 := by
  refine ⟨?_, by decide⟩
  intro row h
  simp only [moveTable, List.mem_cons, List.not_mem_nil, or_false] at h
  rcases h with rfl | rfl | rfl | rfl <;> (try unfold CleanB) <;> decide +kernel

theorem witness_vectorReduction : v0.vb = 0 ∧ v0.sx = 0 ∧ v0.bx = false ∧
    ∀ row ∈ reduceTable k0 v0, row.2.1 := by
  refine ⟨rfl, rfl, rfl, ?_⟩
  intro row h
  simp only [reduceTable, List.mem_cons, List.not_mem_nil, or_false] at h
  rcases h with rfl | rfl | rfl | rfl <;> decide +kernel

/-- s1 holds the address of the last 128 bytes of scratch. -/
def atEnd : State := withRegs fun r => r.sPut 1 0x2FFF80 false

theorem witness_vectorScratch : (let f := { v0 with sx := 1, w := 2 }; Issues atEnd (.vld k0 f) ∧ Issues atEnd (.vst k0 f)) ∧ (atEnd.view k0).pTag 0 = false ∧ (atEnd.view k0).sTag 1 = false ∧
    0x2FFF80 = (BitVec.ofInt 64 (((atEnd.view k0).sGet 1).toInt + (0 : BitVec 11).toInt * (32 * 2 ^ (2 : BitVec 2).toNat))).toNat ∧
    InScratch 0x2FFF80 (32 * 2 ^ (2 : BitVec 2).toNat) ∧ (atEnd.core 0).readBusy (0x2FFF80, 128) = false ∧
    (atEnd.core 0).writeBusy (0x2FFF80, 128) = false := by simp only [issues_iff]; unfold InScratch; decide +kernel

theorem witness_activation : Issues playing (.vact k0 { v0 with imm := 1 }) ∧ (playing.view k0).pTag 0 = false ∧ (playing.view k0).sTag 0 = false ∧
    (32 : Nat) = (BitVec.ofInt 64 (((playing.view k0).sGet 0).toInt + (1 : BitVec 11).toInt * 32)).toNat ∧
    32 % 32 = 0 ∧ 32 + 1056 ≤ 0x300000 ∧ (playing.core 0).readBusy (32, 1056) = false := by simp only [issues_iff]; decide +kernel

theorem witness_conversion_issues : Issues playing (.vcvt k0 vx0) ∧ Issues playing (.vq k0 { vx0 with fmtd := 10, part := 3 }) ∧
    Issues playing (.vdq k0 { vx0 with fmts := 3 }) ∧ Issues playing (.vtpack k0 { vx0 with part := 3 }) ∧
    Issues playing (.vtunpk k0 { vx0 with part := 3 }) := by simp only [issues_iff]; decide +kernel

theorem witness_conversion_vcvt : SrFields vx0 ∧ vx0.fmts.toNat ≤ 9 ∧ vx0.fmtd.toNat ≤ 9 ∧ vx0.b16 = false ∧ vx0.ss = 0 ∧
    PartOk vx0.src.width vx0.dst.width vx0.part.toNat := by unfold SrFields PartOk; decide +kernel

theorem witness_conversion_vq : let f := { vx0 with fmtd := 10, part := 3 }
    SrFields f ∧ f.fmts.toNat ≤ 2 ∧ 3 ≤ f.fmtd.toNat ∧ f.fmtd.toNat ≤ 10 ∧ f.sat = false ∧
      PartOk f.src.width f.dst.width f.part.toNat := by unfold SrFields PartOk; decide +kernel

theorem witness_conversion_vdq : let f := { vx0 with fmts := 3 }
    SrFields f ∧ 3 ≤ f.fmts.toNat ∧ f.fmts.toNat ≤ 10 ∧ f.fmtd.toNat ≤ 2 ∧ PartOk f.src.width f.dst.width f.part.toNat := by
  unfold SrFields PartOk; decide +kernel

theorem witness_ternary : let f := { vx0 with part := 3 }
    f.va.val % 2 = 0 ∧ f.vd.val % 2 = 0 ∧ f.part.toNat ≤ 3 ∧ f.fmts = 0 ∧ f.fmtd = 0 ∧ f.rm = 0 ∧ f.sat = false := by decide

/-! ### Witnesses: the arrays -/

theorem settled_empty (x : Arr) (h : x.queue = []) : Settled x := by
  intro i c hc; rw [h] at hc; simp at hc

theorem witness_array_issues : ∀ row ∈ queuedTable k0 m0 ++ instantTable k0 m0, Issues playing row.1 := by
  simp only [issues_iff]; decide +kernel

theorem witness_arrayQueued : (∀ row ∈ queuedTable k0 m0, ArrayForm row.2 m0 ∧ ArrayOperands playing k0 m0 row.2 ∧
      RangesFree (playing.core 0) (mkCmd row.2 m0 (playing.view k0) (playing.arr 0 0).pendingCfg 0 0)) ∧
    (playing.arr 0 0).queue.length < 4 ∧ Settled (playing.arr 0 0) ∧ m0.q = 0 := by
  refine ⟨?_, by decide +kernel, settled_empty _ (by decide +kernel), rfl⟩
  intro row h
  simp only [queuedTable, List.mem_cons, List.not_mem_nil, or_false] at h
  rcases h with rfl | rfl | rfl | rfl <;> unfold ArrayForm ArrayOperands RangesFree <;> decide +kernel

theorem witness_arrayTakesEffect : (∀ row ∈ instantTable k0 m0, ArrayForm row.2 m0 ∧ ArrayOperands playing k0 m0 row.2 ∧
      RangesFree (playing.core 0) (mkCmd row.2 m0 (playing.view k0) (playing.arr 0 0).cfg 0 0)) ∧
    (playing.arr 0 0).queue = [] ∧ (playing.arr 0 0).drain = none ∧ m0.q = 0 ∧
    fld ((playing.view k0).sGet m0.sx) 41 0 = 0 ∧ fld ((playing.view k0).sGet m0.sx) 50 47 ≤ 4 := by
  refine ⟨?_, by decide +kernel⟩
  intro row h
  simp only [instantTable, List.mem_cons, List.not_mem_nil, or_false] at h
  rcases h with rfl | rfl | rfl <;> unfold ArrayForm ArrayOperands RangesFree <;> decide +kernel

/-- A command of an array's queue, and the running core with it alone in physical array 0. -/
def cmdOf (op : ArrOp) : ArrCmd := { mkCmd op m0 RegFile.zero 0 0 0 with addrOk := true }
def queued (op : ArrOp) (f : Arr → Arr) : State :=
  playing.setCore 0 { playing.core 0 with
    arrays := (playing.core 0).arrays.set 0 (f { (playing.core 0).arrays[0] with queue := [cmdOf op] }) }

theorem moves_playing : Moves playing 0 ∧ Moves (queued .mma id) 0 := by unfold Moves; decide +kernel

theorem witness_portRead_mlds : let s := queued .mlds id
    (s.arr 0 0).queue = [cmdOf .mlds] ∧ (cmdOf .mlds).poisoned = false ∧ (cmdOf .mlds).portReason = none ∧
      (cmdOf .mlds).words.length < (cmdOf .mlds).nwords ∧ (cmdOf .mlds).op = .mlds := by decide +kernel

theorem witness_portRead_feed : let s := queued .feed id
    (s.arr 0 0).queue = [cmdOf .feed] ∧ (cmdOf .feed).poisoned = false ∧ (cmdOf .feed).portReason = none ∧
      (cmdOf .feed).words.length < (cmdOf .feed).nwords ∧ (cmdOf .feed).op = .feed ∧
      (s.arr 0 0).feeders[(cmdOf .feed).f.q.val].length + ((cmdOf .feed).f.n1.toNat + 1) ≤ feederCap (cmdOf .feed).cfg := by
  decide +kernel

/-- An operand of FP32 zeros. -/
def operand0 : Operand := ⟨.f32, []⟩

theorem witness_arrayStep : let s := queued .mma fun x => { x with feeders := x.feeders.set 0 [operand0] }
    (s.arr 0 0).queue = [cmdOf .mma] ∧ (cmdOf .mma).op = .mma ∧ (cmdOf .mma).poisoned = false ∧ (cmdOf .mma).f.q = 0 ∧
      (s.arr 0 0).feeders[0] = [operand0] ∧ (s.arr 0 0).mmaReason (cmdOf .mma) = none ∧
      operand0.fmt.code = (cmdOf .mma).f.fmtb.toNat := by decide +kernel

theorem witness_drainSnapshot : let s := queued .mdrn id
    (s.arr 0 0).queue = [cmdOf .mdrn] ∧ (cmdOf .mdrn).op = .mdrn ∧ (cmdOf .mdrn).poisoned = false ∧
      (cmdOf .mdrn).badTile (s.arr 0 0).cfg = false ∧ (s.arr 0 0).drain = none := by decide +kernel

/-- A drain of one word to address 0x2FFFE0, and the core with it. -/
def drain1 : Drain := { addr := 0x2FFFE0, data := List.replicate 32 7, poison := [true], flags := 1, bundle := 0 }
def draining : State :=
  playing.setCore 0 { playing.core 0 with
    arrays := (playing.core 0).arrays.set 0 { (playing.core 0).arrays[0] with drain := some drain1 } }

theorem witness_drainWrites : (draining.arr 0 0).drain = some drain1 ∧ (draining.arr 0 0).queue = [] ∧ drain1.addr % 32 = 0 ∧
    drain1.data.length = 32 * drain1.poison.length := by decide +kernel

theorem witness_gridCell : let c : Cell := ⟨2 ^ 63, 65536, false, false, false⟩
    c.invalid = false ∧ c.big = false ∧ c.terms ≤ 65536 ∧ c.deliver.1 = 2 ^ 63 - 1 := by decide +kernel

/-! ### Witnesses: the memory slot -/

/-- s1 names the last word of scratch, s2 the last word of the vault, s3 the word before it. -/
def moving : State := withRegs fun r => ((r.sPut 1 0x2FFFE0 false).sPut 2 0x3FFFFFE0 false).sPut 3 0x3FFFFFC0 false

theorem rangeOk_vault (s : State) (p : PCore) (f : XForm) (a : W64) (h : f.spc = false) :
    RangeOk s p f a ↔ a.toNat % 32 = 0 ∧ a.toNat + 32 * f.cnt.toNat ≤ 2 ^ 30 := by simp [RangeOk, h]

theorem permits0 : Permits moving k0 0 := by unfold Permits; decide +kernel

theorem queueWaits_empty (c : Core) (h : c.xq = []) (g : c.ports = []) : QueueWaits c := by
  refine ⟨by unfold QueueRoom; rw [h, g]; decide, ?_⟩
  intro x hx; rw [h] at hx; simp at hx

/-- VLOAD and VSTORE of one word, from the vault's last word and the scratch's last. -/
def word1 : XForm := { x0 with sx := 1, sy := 2, cnt := 1 }

theorem witness_vload : Issues moving (.vload k0 word1) ∧ Permits moving k0 word1.pg ∧ QueueWaits (moving.core 0) ∧
    (moving.view k0).sTag 1 = false ∧ (moving.view k0).sTag 2 = false ∧ RangeOk moving 0 word1 ((moving.view k0).sGet 2) ∧
    InScratch ((moving.view k0).sGet 1).toNat 32 ∧ ((moving.view k0).sGet 1).toNat + 32 * word1.cnt.toNat ≤ 0x300000 ∧
    (moving.core 0).writeBusy (((moving.view k0).sGet 1).toNat, 32 * word1.cnt.toNat) = false := by
  refine ⟨?_, permits0, queueWaits_empty _ (by decide +kernel) (by decide +kernel), ?_⟩
  · simp only [issues_iff]; decide +kernel
  · rw [rangeOk_vault _ _ _ _ rfl]; unfold InScratch; decide +kernel

theorem witness_vstore : Issues moving (.vstore k0 word1) ∧ QueueRoom (moving.core 0) ∧ (moving.core 0).xq = [] ∧ (wordsOf moving 0 word1 ((moving.view k0).sGet 2)).Nodup ∧
    (moving.core 0).readBusy (((moving.view k0).sGet 1).toNat, 32 * word1.cnt.toNat) = false ∧
    (moving.core 0).vault.fillCmp = false := by simp only [issues_iff]; unfold QueueRoom; decide +kernel

/-- An in-bank operation on the last word of the vault, onto itself: IDX names operation op in FP32. -/
def bankForm (op : Nat) : XForm := { x0 with sx := 2, sy := if op = 1 then 0 else 2, sz := if op = 0 ∨ op = 7 then 0 else if op = 4 ∨ op = 2 ∨ op = 3 ∨ op = 6 then 2 else 4, cnt := 1, idx := BitVec.ofNat 16 (op * 4096) }

theorem witness_ibop_issues : ∀ op < 8, ∀ row ∈ ibopTable k0 (bankForm op), row.2.1 = op → op ≠ 7 → Issues moving row.1 := by
  simp only [issues_iff]; decide +kernel

/-- IBOP.ACT issues where its table is valid. -/
theorem witness_ibop_act_issues : Issues (moving.wr (Reg.IB_TAB_VALID 0) 15 0 1) (.ibopAct k0 (bankForm 7)) := by
  simp only [issues_iff]; decide +kernel

theorem witness_ibop : ∀ op < 8, IbopForm (bankForm op) op ∧ RangeOk moving 0 (bankForm op) ((moving.view k0).sGet 2) ∧
    (moving.view k0).sTag 2 = false ∧ (moving.view k0).sTag 4 = false ∧ (moving.view k0).sTag 3 = false ∧
    SameUnits [2 ^ 25 - 1] [[2 ^ 25 - 1], [2 ^ 25 - 1]] := by
  have h : SameUnits [2 ^ 25 - 1] [[2 ^ 25 - 1], [2 ^ 25 - 1]] := by
    refine ⟨?_, Or.inl (by decide)⟩
    intro o ho i w v hw hv
    have hi : i = 0 := by cases i <;> simp_all
    subst hi
    simp_all
  have g : ∀ op < 8, IbopForm (bankForm op) op ∧ RangeOk moving 0 (bankForm op) ((moving.view k0).sGet 2) ∧
    (moving.view k0).sTag 2 = false ∧ (moving.view k0).sTag 4 = false ∧ (moving.view k0).sTag 3 = false := by
    have r : ∀ op, RangeOk moving 0 (bankForm op) ((moving.view k0).sGet 2) := fun op =>
      (rangeOk_vault _ _ _ _ rfl).mpr (by simp only [bankForm]; decide +kernel)
    have f : ∀ op < 8, IbopForm (bankForm op) op := by unfold IbopForm; decide +kernel
    have t : (moving.view k0).sTag 2 = false ∧ (moving.view k0).sTag 4 = false ∧ (moving.view k0).sTag 3 = false := by decide +kernel
    exact fun op ho => ⟨f op ho, r op, t⟩
  intro op ho
  obtain ⟨a, b, c, d, e⟩ := g op ho
  exact ⟨a, b, c, d, e, h⟩

/-- IBOP.ACT reads a valid table. -/
theorem witness_ibop_act : bit ((moving.wr (Reg.IB_TAB_VALID 0) 15 0 1).reg (Reg.IB_TAB_VALID 0)) (fld (bankForm 7).idx 3 0) = true := by
  decide +kernel

/-- A descriptor of one head and one position in scratch at 0, its rows at 64 and 512; the layout that R232 accepts. -/
def descriptor : List Byte := leBytes 32 (1 * 2 ^ 24 + 1 * 2 ^ 32 + 64 * 2 ^ 192 + 512 * 2 ^ 224) ++ List.replicate 32 0
def attending : State :=
  let s := playing.setCore 0 { playing.core 0 with scratch := Memory.store [] 0 descriptor }
  (((s.wr (Reg.IB_KV_TOK 0) 31 16 1).wr (Reg.TBL_SEQ_DIR 0 0) 63 63 1).wr (Reg.TBL_SEQ_PAGE 0 0) 31 31 1)

theorem witness_kvatt : let d := (attending.core 0).scratch.bytes 0 64
    let kv := attending.kv 0 d
    Issues attending (.kvatt k0 x0) ∧ (attending.view k0).sTag 0 = false ∧ ((attending.view k0).sGet 0).toNat = 0 ∧
    (∀ i < 64, (attending.core 0).scratchTag (0 + i) = false) ∧ descBad d = false ∧ kv.bad = false ∧
    kv.pages = [0] ∧ attending.xlate 0 (kv.pageAddr 0) = .mapped 0 ∧
    (attending.core 0).readBusy (0, 64) = false ∧ (attending.core 0).readBusy (kv.qaddr, 256 * kv.rows) = false ∧
    (attending.core 0).writeBusy (kv.oaddr, 544 * kv.rows) = false := by simp only [issues_iff]; decide +kernel

/-- A mapped page of sequence 0 of the core's tower. -/
def mapped : State := (playing.wr (Reg.TBL_SEQ_DIR 0 0) 63 63 1).wr (Reg.TBL_SEQ_PAGE 0 0) 31 31 1

theorem witness_translation : Issues mapped (.xqry k0 x0) ∧ Issues mapped (.xchk k0 { x0 with cnt := 1 }) ∧ QueueRoom (mapped.core 0) := by
  simp only [issues_iff]; unfold QueueRoom; decide +kernel

theorem witness_xqry : ∃ e, mapped.pageEntry (mapped.seqTower 0) ((mapped.view k0).sGet 0) = some e :=
  Option.isSome_iff_exists.mp (by decide +kernel)

theorem witness_xchk : pagesOf ((mapped.view k0).sGet 0) (32 * (1 : BitVec 14).toNat) = [0] ∧ mapped.xlate 0 0 = .mapped 0 := by
  decide +kernel

/-! ### Witnesses: deliveries, guards, the core's events -/

/-- Entry 0 of core 0's release table in trick 0: one block, of a kind, on link 0. -/
def entry (kind : Nat) : RelEntry := ⟨0, 1, 0, 0, 0, kind, 0, 5, 1, 0⟩
def input0 : CollDesc := ⟨0, 0, 0, 1, 0, 0, 0, 0, 0⟩
def output4 : CollDesc := ⟨4, 0, 0, 1, 0, 0, 0, 0, 0⟩
def coll5 : CollEntry := ⟨5, 0, 0, false, false, false, 0, 1, 1, 0, 0, [input0], [output4]⟩

/-- The running seat with that table and an engine entry for its delivery, link 0 UP, the block present where it is
received. -/
def delivering (kind : Nat) : State :=
  let d := { deal2 with sections := deal2.sections ++ [⟨0, 0, .release [⟨0, [entry kind]⟩]⟩, ⟨0, 0xFFFF, .collective [coll5]⟩] }
  let s := playing.wr (Reg.LNK_STAT 0) 2 0 LS_UP
  { s with seat := { s.seat with deal := some d, rx := [⟨0, 5, 0, 0, ⟨7, false⟩⟩] },
           engines := s.engines.set 0 { Engine.reset with results := [⟨5, 0, 0, ⟨7, false⟩⟩] } }

def deliver1 : XForm := { x0 with cnt := 1 }

theorem witness_deliveryForm : DeliveryForm deliver1 := by unfold DeliveryForm; decide

/-- The delivery instruction of a kind. -/
def deliverCmd (kind : Nat) : Instr :=
  if kind = 0 then .lsend k0 deliver1 else if kind = 1 then .lrecv k0 deliver1
  else if kind = 2 then .cput k0 deliver1 else .cget k0 deliver1

theorem witness_deliveryReady : ∀ kind < 4, Issues (delivering kind) (deliverCmd kind) ∧ DeliveryReady (delivering kind) k0 deliver1 kind (entry kind) := by
  have h : ∀ kind < 4, Issues (delivering kind) (deliverCmd kind) ∧ Permits (delivering kind) k0 deliver1.pg ∧
      ((delivering kind).view k0).sTag deliver1.sx = false ∧ QueueRoom ((delivering kind).core 0) ∧
      ((delivering kind).releases 0)[deliver1.idx.toNat]? = some (entry kind) := by
    simp only [issues_iff]; unfold Permits QueueRoom; decide +kernel
  have g : ∀ kind < 4, (entry kind).kind = kind ∧ (entry kind).cnt = deliver1.cnt.toNat ∧
      deliver1.idx.toNat ∉ ((delivering kind).core 0).used ∧ (((delivering kind).view k0).sGet deliver1.sx).toNat % 32 = 0 ∧
      (((delivering kind).view k0).sGet deliver1.sx).toNat + 256 * deliver1.cnt.toNat ≤ 0x300000 := by decide +kernel
  intro kind hk
  obtain ⟨a, b, c, d, e⟩ := h kind hk
  exact ⟨a, b, c, d, e, g kind hk⟩

theorem witness_lsend : ((delivering 0).core 0).readBusy (((delivering 0).view k0).sGet 0 |>.toNat, 256 * deliver1.cnt.toNat) = false ∧
    (entry 0).link = (0 : LinkIx).val ∧ (delivering 0).linkOpen 0 = true := by decide +kernel

theorem witness_cput : (delivering 2).collEntry (entry 2) = some coll5 ∧
    descAt coll5.ins 0 ((delivering 2).lcoreOf 0) deliver1.cnt.toNat ((delivering 2).entryRank 0 deliver1.idx.toNat (entry 2)) = some input0 ∧ (∀ o ∈ coll5.outs, o.kind ≠ 6) ∧
    coll5.dtag ∉ ((delivering 2).engine coll5.eng).abandoned ∧
    ((delivering 2).engine coll5.eng).operand coll5.dtag input0.operand input0.first = none := by decide +kernel

theorem witness_lrecv : ((delivering 1).core 0).writeBusy (0, 256 * deliver1.cnt.toNat) = false ∧
    (((delivering 1).seat.rx.find? fun b => b.lcore == (delivering 1).lcoreOf 0 && b.dtag == (entry 1).dtag && b.blk == 0).map
      (·.block)) = some ⟨7, false⟩ := by decide +kernel

theorem witness_cget : (delivering 3).collEntry (entry 3) = some coll5 ∧
    descAt coll5.outs 4 ((delivering 3).lcoreOf 0) deliver1.cnt.toNat ((delivering 3).entryRank 0 deliver1.idx.toNat (entry 3)) = some output4 ∧
    ((delivering 3).engine coll5.eng).result coll5.dtag output4.first = some ⟨7, false⟩ := by decide +kernel

/-- A slot-3 form whose fields are legal for a row. -/
theorem witness_slot3 : (∀ row ∈ slot3Table k0 deliver1, row.1 ∉ ([.kvatt k0 deliver1, .xqry k0 deliver1] : List Instr) → row.2) ∧
    ∀ row ∈ slot3Table k0 x0, row.1 ∈ ([.kvatt k0 x0, .xqry k0 x0] : List Instr) → row.2 := by
  constructor <;> intro row h <;> simp only [slot3Table, List.mem_cons, List.not_mem_nil, or_false] at h <;>
    rcases h with rfl | rfl | rfl | rfl | rfl | rfl | rfl | rfl | rfl <;> (try unfold DeliveryForm) <;> decide

theorem witness_slot2 : ∀ row ∈ queuedTable k0 m0 ++ instantTable k0 m0, ArrayForm row.2 m0 := by
  intro row h
  simp only [queuedTable, instantTable, List.cons_append, List.nil_append, List.mem_cons, List.not_mem_nil, or_false] at h
  rcases h with rfl | rfl | rfl | rfl | rfl | rfl | rfl <;> unfold ArrayForm <;> decide

theorem witness_slots_issue : (∀ row ∈ slot3Table { k0 with lead := true } { deliver1 with pg := 1 }, row.1 ∉ ([.kvatt k0 { deliver1 with pg := 1 }, .xqry k0 { deliver1 with pg := 1 }] : List Instr) → Issues playing row.1) ∧
    (∀ row ∈ slot3Table k0 { x0 with pg := 1 }, row.1 ∈ ([.kvatt k0 { x0 with pg := 1 }, .xqry k0 { x0 with pg := 1 }] : List Instr) → Issues playing row.1) ∧
    (∀ row ∈ queuedTable k0 { m0 with pg := 1 } ++ instantTable k0 { m0 with pg := 1 }, Issues playing row.1) ∧
    QueueRoom (playing.core 0) := by
  unfold QueueRoom
  refine ⟨?_, ?_, ?_, by decide +kernel⟩ <;> intro row h <;>
    simp only [slot3Table, queuedTable, instantTable, List.cons_append, List.nil_append, List.mem_cons, List.not_mem_nil, or_false] at h <;> simp only [issues_iff]
  · rcases h with rfl | rfl | rfl | rfl | rfl | rfl | rfl | rfl | rfl <;> decide +kernel
  · rcases h with rfl | rfl | rfl | rfl | rfl | rfl | rfl | rfl | rfl <;> decide +kernel
  · rcases h with rfl | rfl | rfl | rfl | rfl | rfl | rfl <;> decide +kernel

/-- A guard that forbids: p1 reads zero. -/
theorem witness_guardForbids : (playing.view k0).pTag 1 = false ∧ ((playing.view k0).pGet 1).getLsbD 0 = false := by decide +kernel

/-- A poisoned guard. -/
def tainted : State := withRegs fun r => r.pTaint 1

theorem witness_poisonedGuard : (let f := { deliver1 with pg := 1 }
      Issues tainted (.vstore k0 f) ∧ Issues tainted (.lsend k0 f) ∧ Issues tainted (.cput k0 f) ∧ Issues tainted (.xchk k0 f)) ∧
    QueueRoom (tainted.core 0) ∧ (tainted.view k0).pTag 1 = true ∧ (tainted.core 0).xq = [] ∧
    (tainted.core 0).sinks = 0 ∧ (tainted.core 0).events.length < 16 ∧ tainted.tblState = TS_RUNNING := by
  simp only [issues_iff]; unfold QueueRoom; decide +kernel

/-- An empty hand store holds zeros, and a bundle of zeros is legal or not by R72 alone. -/
theorem witness_illegal : let s := playing.setCore 0 { playing.core 0 with hand := Memory.store [] 0 (List.replicate 32 0xFF) }
    s.canIssue { core := 0, lead := true } = true ∧ (s.core 0).next ≤ 8191 ∧ (s.core 0).events.length < 16 ∧ s.tblState = TS_RUNNING ∧
      (bundleReason ((s.core 0).bundleWords (s.core 0).next)).isSome = true := by decide +kernel

theorem witness_legal : bundleReason ((playing.core 0).bundleWords (playing.core 0).next) = none ∧
    playing.canIssue { core := 0, lead := true } = true ∧
    playing.actBad 0 (((playing.core 0).bundleWords (playing.core 0).next).getD 3 0) = false := by decide +kernel

/-- A bundle that waits past its deadline, and one past the trick of its TBAR. -/
def late (w : Waiting) : State :=
  let s := playing.setCore 0 { playing.core 0 with waiting := some w }
  { s with seat := { s.seat with cycle := 6 } }

theorem witness_deadline : let w : Waiting := ⟨0, none, some 5, 0, none, false, false, .schedule⟩
    ((late w).core 0).waiting = some w ∧ w.revoked = false ∧ w.tbar = none ∧ w.deadline = some 5 ∧
      w.trick = (late w).seat.trick ∧ (5 : BitVec 24).toNat < (late w).seat.cycle.toNat ∧ (late w).tblState = TS_RUNNING := by
  decide +kernel

theorem witness_tbar : let w : Waiting := ⟨0, none, none, 0, some 0, false, false, .schedule⟩
    ((late w).core 0).waiting = some w ∧ w.tbar = some 0 ∧ (0 : BitVec 24) = (late w).seat.trick ∧
      0 < (late w).seat.cycle.toNat := by decide +kernel

/-! ### Witnesses: vaults and in-bank units -/

/-- A load of two words in progress, alone in the queue. -/
def load2 : Xfer := { op := .load 0 [0, 1], done := 0, bundle := 0, fails := 0 }
def loading (await : Bool) : State :=
  playing.setCore 0 { playing.core 0 with xq := [load2], vault := { Vault.reset with awaiting := await } }

theorem witness_vaultReads : ((loading false).core 0).xq = [load2] ∧ load2.done < [0, 1].length ∧ 0 % 32 = 0 ∧
    ((loading false).core 0).vault.awaiting = false ∧ ((loading true).core 0).vault.awaiting = true ∧
    ((loading true).core 0).xq = [load2] := by decide +kernel

/-- A block whose first CRC line is flipped fails its check. -/
theorem witness_vaultReads_flip (a b : Stored) : (crossed a b (([576] : List (Fin 608)).map (·.val))).2 = false := by
  have hl : (blockBits a b).length = 576 := by simp [blockBits]
  have got : (blockBits a b).mapIdx (fun i x => x ^^ [576].contains i) = blockBits a b := by
    apply List.ext_getElem (by simp)
    intro i h _
    have : i ≠ 576 := by simp [hl] at h; omega
    simp [this]
  have chk : ∀ c : BitVec 32, (List.range 32).foldl (fun (c : BitVec 32) i =>
      if [576].contains (576 + i) then c ^^^ (1 <<< i) else c) c = c ^^^ 1 := by intro c; rfl
  have ne : ∀ c : BitVec 32, (c == c ^^^ 1) = false := by
    intro c
    simp only [beq_eq_false_iff_ne, ne_eq]
    intro h
    have e : c ^^^ c = c ^^^ (c ^^^ 1) := congrArg (c ^^^ ·) h
    rw [BitVec.xor_self, ← BitVec.xor_assoc, BitVec.xor_self, BitVec.zero_xor] at e
    exact absurd e (by decide)
  simp only [crossed, List.map_cons, List.map_nil]
  show (crc32 ((blockBits a b).mapIdx _) == (List.range 32).foldl _ _) = false
  exact (congr (congrArg (fun x y => crc32 x == y) got) (chk _)).trans (ne _)

/-- A write burst of one word that may still be undone. -/
def burst1 : WriteBurst := { words := [5], old := [Stored.ofBits 0], new := [Stored.ofBits 1], fails := 2, pending := false, kind := 2, ofHand := true, bundle := 0, flips := [] }
def stored1 : State := playing.setCore 0 { playing.core 0 with vault := { Vault.reset with bursts := [burst1] } }

theorem witness_returnStatus : ((List.range 16).countP fun i => (1 : BitVec 16).getLsbD i) % 2 = 1 ∧
    (1 : BitVec 16).getLsbD 0 = true ∧ (1 : BitVec 16).getLsbD 1 = false ∧ (stored1.core 0).vault.bursts[0]? = some burst1 ∧
    burst1.fails < 3 ∧ burst1.words.Nodup ∧ (∀ w ∈ burst1.words, w < 2 ^ 25) ∧ burst1.old.length = burst1.words.length := by
  decide +kernel

theorem witness_returnStatus_quiet : ((List.range 16).countP fun i => (4 : BitVec 16).getLsbD i) % 2 = 1 ∧
    (4 : BitVec 16).getLsbD 0 = false ∧ (4 : BitVec 16).getLsbD 1 = false := by decide

theorem witness_refresh : (playing.core 0).vault.selfRefresh = false ∧ (playing.core 0).vault.handed = false := by decide +kernel

/-- A running seat whose deal marks a window of a kind for core 0 at the start of the trick. -/
def marking (kind : Nat) : State := { playing with seat := { playing.seat with deal := some { deal2 with
  sections := deal2.sections ++ [⟨0, 0, .windows [⟨0, 0, kind⟩]⟩] } } }
def scrubbing : State := ((marking 2).wr (Reg.VLT_CFG 0) 1 0 1).wr (Reg.VLT_SCRUB_STAT 0) 18 0 524286
theorem witness_scrub : scrubbing.marked 0 2 = true ∧ (scrubbing.core 0).vault.noise = [] ∧ (scrubbing.core 0).vault.selfRefresh = false ∧ scrubbing.rd (Reg.VLT_CFG 0) 1 0 = 1 ∧
    (∀ e < 8, (scrubbing.reg (Reg.VLT_REMAP 0 e)).getLsbD 62 = false) ∧ scrubbing.rd (Reg.VLT_SCRUB_STAT 0) 18 0 < 524287 := by
  decide +kernel

theorem witness_raw : (seatIn TS_EMPTY CS_STOPPED).coreState 0 ∈ [CS_STOPPED, CS_FAULTED, CS_SPARE, CS_RETIRED] ∧
    (seatIn TS_EMPTY CS_STOPPED).startAccepted = false := by decide +kernel

/-- An access of the host that waits for a window. -/
def waitingHost (a : Access) : State := { marking 1 with host := { HostPort.reset with accesses := [(0, a)] } }
theorem witness_hostWindow : (waitingHost (.read (2 ^ 30 - 32) 32)).marked 0 1 = true ∧ playing.marked 0 1 = false ∧
    ((waitingHost (.read (2 ^ 30 - 32) 32)).core 0).vault.noise = [] ∧
    (waitingHost (.read (2 ^ 30 - 32) 32)).host.accesses = [((waitingHost (.read (2 ^ 30 - 32) 32)).lcoreOf 0, .read (2 ^ 30 - 32) 32)] ∧
    (2 ^ 30 - 32) % 32 = 0 ∧ (waitingHost (.write 0 (List.replicate 32 1) true)).host.accesses = [((waitingHost (.write 0 (List.replicate 32 1) true)).lcoreOf 0, .write 0 (List.replicate 32 1) true)] ∧
    (List.replicate 32 (1 : Byte)).length = 32 := by decide +kernel

/-- Each in-bank operation at the head of the queue, on words 0 and 1. -/
def banking (op : Nat) : Xfer := { op := .ibop op .f32 0 [0, 1] (if ibReadsA op then [8, 9] else []) (if ibReadsB op then [8, 9] else []) 0 false, done := 0, bundle := 0, fails := 0 }

theorem witness_ibrun : ∀ op < 8, let s := playing.setCore 0 { playing.core 0 with xq := [banking op] }
    (s.core 0).xq = [banking op] ∧ (s.core 0).vault.awaiting = false ∧ ((ibCommands op .f32 0 [0, 1] (if ibReadsA op then [8, 9] else []) (if ibReadsB op then [8, 9] else []) 0 false)[
      contextCount (ibCommands op .f32 0 [0, 1] (if ibReadsA op then [8, 9] else []) (if ibReadsB op then [8, 9] else []) 0 false)]?).isSome = true := by
  decide +kernel
theorem witness_ibrun_words : [0, 1].Nodup ∧ (∀ w ∈ [0, 1], w < 2 ^ 25) ∧ [8, 9].length = [0, 1].length ∧
    (∀ i < 2, ∀ j < 2, i ≠ j → [8, 9].getD j 0 ≠ [0, 1].getD i 0) ∧
    (∀ i < 2, ∀ j < 2, [0, 1].getD i 0 / 8 = [0, 1].getD j 0 / 8 → [8, 9].getD i 0 / 8 = [8, 9].getD j 0 / 8) := by decide

/-- The words of a destination and an operand that starts a row's burst later lie in one slice, bank and place. -/
theorem witness_sameUnits : SameUnits [0, 1] [[2 ^ 10, 2 ^ 10 + 1]] := by
  refine ⟨?_, Or.inr (by decide)⟩
  intro o ho i w v hw hv
  simp only [List.mem_singleton] at ho
  subst ho
  match i with
  | 0 => simp at hw hv; subst hw hv; decide
  | 1 => simp at hw hv; subst hw hv; decide
  | n + 2 => simp at hw

def reporting (q : IbSlice) : State := playing.setCore 0 { playing.core 0 with ib := { InBank.reset with slices := InBank.reset.slices.set 0 q } }
theorem witness_ibReport_lost : ((reporting ⟨[], 63⟩).core 0).ib.nextSlice = some 0 ∧ ((reporting ⟨[], 63⟩).core 0).ib.slices[0].lost ≠ 0 := by
  decide +kernel
theorem witness_ibReport : let q : IbSlice := ⟨[⟨0, 0, 0, 0, 0⟩], 0⟩
    ((reporting q).core 0).ib.nextSlice = some 0 ∧ ((reporting q).core 0).ib.slices[0].queue = ⟨0, 0, 0, 0, 0⟩ :: [] := by
  decide +kernel

theorem witness_ibTab : (131 : Fin 256).val < 132 ∧ (seatIn TS_EMPTY CS_STOPPED).coreState 0 ∈ [CS_STOPPED, CS_FAULTED, CS_SPARE, CS_RETIRED] ∧
    (seatIn TS_EMPTY CS_STOPPED).rd (Reg.CORE_PWR 0) 5 4 = 0 := by decide +kernel
theorem witness_kvLayout : (seatIn TS_EMPTY CS_STOPPED).coreState 0 ≠ CS_RUNNING ∧ (seatIn TS_EMPTY CS_STOPPED).coreState 0 ≠ CS_HELD := by
  decide +kernel
theorem witness_seqEntry : (4095 : BitVec 16).toNat < 4096 ∧ (seatIn TS_EMPTY CS_STOPPED).dealRuns = false ∧ playing.dealRuns = true := by
  decide +kernel

/-- A KV-attend at the head of the queue, before its pass, in it with a run left, and with none. -/
def kvDoing (k : Option KvPass) : State :=
  attending.setCore 0 { attending.core 0 with xq := [{ op := .kvatt descriptor, done := 0, bundle := 0, fails := 0 }], ib := { InBank.reset with kv := k } }
def pass (runs : List KvRun) (records : List (Nat × Nat × KvRow)) : KvPass :=
  { KvPass.fresh 0 false with set := true, qlo := 62, runs, records }

theorem witness_kvset : ((kvDoing none).core 0).ib.kv = none ∧ (kvDoing none).kvRuns 0 ((kvDoing none).kv 0 descriptor) ≠ [] ∧
    ((kvDoing none).core 0).vault.awaiting = false := by decide +kernel
def run63 : KvRun := ⟨63, [⟨0, 0, [0]⟩]⟩
theorem witness_kvrun : ((kvDoing (some (pass [run63] []))).core 0).ib.kv = some (pass [run63] []) ∧ (pass [run63] []).set = true ∧
    (pass [run63] []).runs = run63 :: [] := by decide +kernel
/-- A row is loaded at position 62, and a record merged at 63. -/
theorem witness_chain : ((kvDoing (some (pass [] []))).core 0).ib.kv = some (pass [] []) ∧ (pass [] []).set = true ∧
    (∀ r ∈ (pass [] []).runs, r.q ≠ 62) ∧ (∀ y ∈ (pass [] []).records, y.1 ≠ 63) ∧ (62 : Fin 64).val = (pass [] []).qlo ∧
    (pass [] []).row < 8 * (pass [] []).pass + (((kvDoing none).kv 0 descriptor).passRows 0).length ∧
    (63 : Fin 64).val ≠ (pass [] []).qlo ∧ (pass [] [(63, 0, KvRow.zero)]).records.find? (fun z => z.1 == 63) = some (63, 0, KvRow.zero) ∧
    (∀ y ∈ (pass [] [(63, 0, KvRow.zero)]).records, y.1 ≠ 64) := by decide +kernel

/-! ### Witnesses: the schedule -/

/-- A running seat at its last trick; one that holds. -/
def lastTrick : State := { playing with seat := { playing.seat with trick := 1 } }
def holding (h : Nat) (s : State) : State := { s with seat := { s.seat with hold := some h } }

theorem seatSound_of (s : State) (h : s.seat.seqHeld = []) (g : s.seat.hold = none ∨ s.seat.hold = some 0 ∨ s.seat.hold = some 1 ∨ s.seat.hold = some 2) :
    SeatSound s := by
  refine ⟨by simp [h], ?_⟩
  intro x hx
  rcases g with g | g | g | g <;> rw [hx] at g <;> simp at g <;> omega

theorem witness_trickBoundary : playing.running = true ∧ playing.seat.trick.toNat + 1 < playing.tricks.length ∧ playing.seat.hold = none := by
  decide +kernel
theorem witness_heldBoundary : (holding 2 playing).running = true ∧ (holding 2 playing).seat.hold = some 2 ∧
    (holding 0 lastTrick).seat.hold = some 0 ∧ (holding 2 playing).host.accesses = [] ∧
    (holding 2 playing).seat.trick.toNat + 1 < (holding 2 playing).tricks.length ∧
    (holding 0 lastTrick).seat.trick.toNat + 1 = (holding 0 lastTrick).tricks.length := by decide +kernel
theorem witness_rubberBoundary : lastTrick.running = true ∧ lastTrick.seat.trick.toNat + 1 = lastTrick.tricks.length ∧
    lastTrick.seat.hold = none ∧ lastTrick.seat.step = none ∧ lastTrick.seat.variantAt = none ∧ lastTrick.seat.deal = some deal2 ∧
    deal2.nrubbers = 0 ∧ lastTrick.rubber + 1 < 2 ^ 40 ∧ lastTrick.seat.variants = [] ∧ SeatSound lastTrick ∧ (0 : PCore) ∈ lastTrick.serving ∧ IsOn lastTrick 0 :=
  ⟨by decide +kernel, by decide +kernel, rfl, rfl, rfl, rfl, rfl, by decide +kernel, rfl, seatSound_of _ rfl (Or.inl rfl),
    by decide +kernel, by unfold IsOn; decide +kernel⟩
theorem witness_eventLeave : ∃ r rest,
    (playing.setCore 0 { playing.core 0 with events := [⟨0, 0, 0, 0, 0, 0, 0, 0, 0, 0⟩] } |>.core 0).events = r :: rest := ⟨_, _, rfl⟩

theorem idFree_of (s : State) (id : BitVec 16) (h : s.host.opened = []) : IdFree s id := by simp [IdFree, h]

/-- A tick that a command may name: 240 ticks ahead. -/
theorem witness_tickAhead : TickAhead (seatIn TS_LOADED CS_STOPPED) 240 ∧ TickAhead playing 240 ∧ TickAhead (seatIn TS_HELD CS_HELD) 240 := by
  unfold TickAhead; decide +kernel
theorem witness_tableCommands : (seatIn TS_LOADED CS_STOPPED).tblState ∈ [TS_LOADED, TS_STOPPED] ∧
    (seatIn TS_STOPPED CS_STOPPED).tblState ∈ [TS_LOADED, TS_STOPPED] ∧ (seatIn TS_LOADED CS_STOPPED).seat.startAt = none ∧
    playing.tblState = TS_RUNNING ∧ (seatIn TS_HELD CS_HELD).tblState ∈ [TS_HELD, TS_STEPPING] ∧
    (seatIn TS_STEPPING CS_HELD).tblState ∈ [TS_HELD, TS_STEPPING] ∧ (seatIn TS_HELD CS_HELD).host.accesses = [] ∧
    (seatIn TS_HELD CS_HELD).seat.deal = some deal2 ∧ (0 : Byte).toNat < deal2.nvar ∧ (seatIn TS_HELD CS_HELD).seat.replayAt = none ∧
    2400 ≤ playing.cyclesTo (2 : BitVec 64).toNat ∧ playing.cyclesTo 0 < 2400 ∧ playing.seat.variantAt = none ∧ playing.seat.step = none ∧
    (2 : Byte).toNat ≤ 2 ∧ deal2.clocks.testBit 2 = true := by decide +kernel
theorem witness_stop_held : SeatSound (seatIn TS_HELD CS_HELD) ∧ SeatSound (seatIn TS_STEPPING CS_HELD) ∧
    IdFree (seatIn TS_HELD CS_HELD) 7 ∧ IdFree playing 0 :=
  ⟨seatSound_of _ rfl (Or.inl rfl), seatSound_of _ rfl (Or.inl rfl), idFree_of _ _ rfl, idFree_of _ _ rfl⟩

theorem witness_hostCommands_refused : (seatIn TS_EMPTY CS_STOPPED).tblState ∉ [TS_LOADED, TS_STOPPED] ∧ ¬TickAhead playing 239 ∧
    ¬TickAhead playing 241 ∧ (seatIn TS_EMPTY CS_STOPPED).tblState ∉ [TS_RUNNING, TS_HELD, TS_STEPPING] := by
  unfold TickAhead; decide +kernel
theorem witness_stage : playing.physOf (0 : Byte).toNat = some 0 ∧ (0x3FFFFFE0 : BitVec 32).toNat % 32 = 0 ∧
    (0x3FFFFFE0 : BitVec 32).toNat < 2 ^ 30 ∧ (seatIn TS_EMPTY CS_STOPPED).dealRuns = false ∧
    (seatIn TS_EMPTY CS_STOPPED).physOf 0 = some 0 ∧ (seatIn TS_EMPTY CS_STOPPED).host.accesses = [] ∧ playing.running = true := by decide +kernel
theorem witness_mgmt : playing.sec.restarting = false ∧ (89 : Byte).toNat < 90 ∧ playing.sec.queue.length < 8 ∧
    (mgmtKind (leBytes 1 3 ++ List.replicate 15 0)) = some .telemetry ∧
    mgmtKind (leBytes 1 2 ++ leBytes 1 1 ++ leBytes 6 (16 * 65536) ++ List.replicate 24 0) = some .fwStage ∧
    mgmtKind (leBytes 1 1 ++ leBytes 7 (1 * 2 ^ 24) ++ List.replicate 8 0 ++ [1]) = some .pldm ∧
    mgmtKind (leBytes 1 1 ++ leBytes 7 (3 * 2 ^ 24) ++ List.replicate 8 0 ++ [5, 0, 0]) = some .spdmOther ∧
    ({ playing with sec := { Sec.reset with queue := List.replicate 8 ⟨⟨0, 0, 0, 0⟩, .spdm, 0⟩ } } : State).sec.queue.length = 8 := by decide +kernel

/-- LOAD: bytes that do not parse, the seat that may load. -/
theorem witness_load : IdFree (seatIn TS_EMPTY CS_STOPPED) 0 ∧ (seatIn TS_EMPTY CS_STOPPED).tblState ∈ [TS_EMPTY, TS_LOADED, TS_STOPPED] ∧
    (seatIn TS_EMPTY CS_STOPPED).seat.startAt = none ∧ ∃ i, parsePart [] = .inr i :=
  ⟨idFree_of _ _ rfl, by decide +kernel, by decide +kernel, ⟨_, rfl⟩⟩

/-- A seat part of one seat and one trick, written from the tables of R264 to R266 with its two digests: 32-byte rows,
little-endian. -/
def partRows : List Nat :=
  [12368738251863769870441852011010184512046530832481708138275385878444066896, 4619946877244597042186203556783130928422503979021912045094560,
   25108406941546723142475455001309184801372174713665525776640, 71644513766958524126379033350616642529777092300520227455895529885422864801577,
   103500574166508202950535820114407777066121045845125760527163403592915522939040, 0,
   0, 0,
   115792089210356248768974548684794254361978406222606445148308344278635725717505, 3822754956849027083539685702916027977964303454386415743271488,
   50216813883093446328807312581903658246512170022619251212296, 454079668793821767107669124015078971325105488957443219743033588941372522496,
   454079668793821767107669124015078971325105488957443219743105928006109036543, 454079668793821767107669124015078971325105488957443219743105928006109036543,
   454079668793821767107669124015078971325105488957443219743105928006109036543, 454079668793821767107669124015078971325105488957443219743105928006109036543,
   454079668793821767107669124015078971325105488957443219743105928006109036543, 72339064736514047,
   8589934594400, 0,
   65535, 77197426211787072939579549786598029331786423272750070876648908609202906678813,
   87336656167982082531658265031716878369973640297078736763083874263612997278188]

def part1 : List Byte := partRows.flatMap (leBytes 32)

def cmd1 : CmdRef := ⟨1, 0, 0, 0⟩

/-- A seat with the identity that the part names, and one without. -/
def formed : State := (seatIn TS_EMPTY CS_STOPPED).wr Reg.TBL_FORM_STAT 1 0 3

set_option maxRecDepth 1000000 in
theorem witness_load_part : (match parsePart part1 with
    | .inl p => ((openedWith formed (formed.ref 1 0 0)).beginLoad.recordPartners.misdealOf p).isNone &&
        ((openedWith (seatIn TS_EMPTY CS_STOPPED) cmd1).beginLoad.recordPartners.misdealOf p).isSome
    | .inr _ => false) = true := by decide +kernel

theorem witness_load_cores : formed.serving = [0] ∧ IsOn formed 0 ∧ formed.rd (Reg.CORE_PWR 0) 8 8 = 0 ∧
    ¬IsOn (formed.wr (Reg.CORE_PWR 0) 5 4 1) 0 := by unfold IsOn; decide +kernel

def cmd0 : CmdRef := ⟨2, 0, 0, 0⟩
def starting : State := let s := seatIn TS_LOADED CS_STOPPED
  { s with seat := { s.seat with startAt := some (240, cmd0) } }
theorem witness_startTick : starting.seat.startAt = some (240, cmd0) ∧ starting.seat.deal = some deal2 ∧
    starting.tblState ∈ [TS_LOADED, TS_STOPPED] ∧ starting.partnerDiffers deal2 = none ∧ starting.variant = 0 ∧
    starting.seat.variantAt = none := by decide +kernel
theorem witness_startTick_differs : (starting.wr (Reg.LNK_STAT 3) 2 0 LS_UP).partnerDiffers deal2 = some 3 := by decide +kernel

def held (r : Option (W64 × Option (Nat × CmdRef))) : State := let s := seatIn TS_HELD CS_HELD
  { s with seat := { s.seat with replayAt := r, hold := some 0, lowest := some 0, variants := [(0, 0)] } }
theorem witness_replayTick : (held (some (240, none))).tblState = TS_HELD ∧ (held (some (240, none))).seat.division = none ∧
    (held (some (240, none))).seat.lowest = some 0 ∧ (held (some (240, none))).seat.step = none ∧ (held (some (240, none))).seat.variantAt = none ∧
    (held (some (240, none))).seat.variants.find? (fun x => x.1 == 0) = some (0, (held (some (240, none))).variant) ∧
    (held (some (240, some (1, cmd0)))).seat.replayAt = some (240, some (1, cmd0)) ∧ (held (some (240, some (1, cmd0)))).seat.deal ≠ none ∧
    (held (some (240, none))).seat.replayAt = some (240, none) ∧ (held (some (240, none))).seat.hold = some 0 ∧
    (held (some (240, some (0, cmd0)))).seat.replayAt = some (240, some ((held (some (240, some (0, cmd0)))).variant, cmd0)) ∧
    (held (some (240, some (0, cmd0)))).boot.sparing = none := by decide +kernel

def plan (replay : Bool) : StepPlan := ⟨0, 1, 240, cmd0, true, replay⟩
def stepping (n : Nat) (p : StepPlan) (d : Option Division) : State := let s := seatIn n CS_HELD
  { s with seat := { s.seat with step := some p, division := d } }
theorem witness_resumeTick : (stepping TS_STEPPING (plan false) none).seat.step = some (plan false) ∧ (plan false).begun = true ∧
    (plan false).replay = false ∧ (stepping TS_STEPPING (plan false) none).seat.division = none ∧
    (stepping TS_STEPPING (plan false) none).boot.sparing = none ∧
    (∀ w : Tower, ((stepping TS_STEPPING (plan false) none).reg (Reg.PWR_DROOP w)).getLsbD 0 = true) ∧
    (stepping TS_STEPPING (plan false) none).tblState = TS_STEPPING ∧ (stepping TS_HELD (plan true) none).tblState = TS_HELD ∧ (stepping TS_STEPPING (plan false) none).seat.variantAt = none := by
  decide +kernel
theorem witness_stepDeferral : (stepping TS_STEPPING (plan false) (some ⟨1, 15, 7⟩)).seat.division ≠ none ∧
    (stepping TS_STEPPING (plan false) (some ⟨1, 15, 7⟩)).tblState = TS_STEPPING ∧
    (2 ^ 64 - 505 : BitVec 64).toNat + 505 ≤ 2 ^ 64 := by decide +kernel

/-! ### Witnesses: notices -/

def request (req : BitVec 2) : Record := ⟨0, 0, 0, 0, req, 0, 0x14, 0, 0, 5⟩
def asking (req : BitVec 2) : State := playing.setCore 0 { playing.core 0 with requests := [(request req, 7)] }
theorem witness_noticeOriginate : ∀ req : BitVec 2, req ≠ 0 → ((asking req).core 0).requests = (request req, 7) :: [] ∧
    (asking req).running = true ∧ (asking req).seat.hold = none ∧
    (asking req).attemptOf (requestRubber (request req)) = 0 ∧ 1 ≤ (asking req).seat.limit := by decide +kernel

/-- Link 0 UP with a notice of a kind and rubber to arrive. -/
def linked (s : State) : State := s.wr (Reg.LNK_STAT 0) 2 0 LS_UP
def note (kind : Byte) (rubber : BitVec 40) : Notice := ⟨kind, 0, 1, 0, 0, rubber, 0x14, 0, false, 0, 500⟩
def clean0 : FrameHead := ⟨0, 0, false, false⟩
theorem witness_noticeReceive : clean0.rsv = false ∧ note 3 0 ∉ (linked (seatIn TS_LOADED CS_STOPPED)).seat.seen ∧ (linked playing).linkOpen 0 = true ∧ note 3 0 ∉ (linked playing).seat.seen ∧
    (linked playing).running = true ∧ (note 3 0).kind.toNat ≤ 3 ∧ (linked playing).isLate (note 3 0) = false ∧
    (linked playing).isLate (note 0 0) = false ∧ (linked playing).seat.replayAt = none ∧
    (linked (seatIn TS_LOADED CS_STOPPED)).dealRuns = false ∧ (linked (seatIn TS_LOADED CS_STOPPED)).linkOpen 0 = true ∧
    playing.linkOpen 0 = false := by decide +kernel
theorem witness_noticeLate : (note 1 0).rubber.toNat + 1 < ((linked playing).wr Reg.TBL_RUN 39 0 2).rubber ∧
    ((linked playing).wr Reg.TBL_RUN 39 0 2).linkOpen 0 = true ∧ ((linked playing).wr Reg.TBL_RUN 39 0 2).running = true := by decide +kernel

/-! ### Witnesses: links -/

/-- Link 0 in a state of LNK_STAT and a training stage. -/
def linkIn (n : Nat) (st : Stage) (f : Link → Link) : State :=
  ((seatIn TS_LOADED CS_STOPPED).wr (Reg.LNK_STAT 0) 2 0 n).setLink 0 (f { Link.reset with stage := st })

theorem witness_training : ((linkIn LS_TRAINING .detect id).link 0).stage = .detect ∧
    (linkIn LS_TRAINING .detect id).linkState 0 ∈ [LS_DOWN, LS_TRAINING] ∧ ((linkIn LS_TRAINING .equalise id).link 0).stage = .equalise ∧
    ((linkIn LS_TRAINING .check id).link 0).stage = .check ∧
    ((linkIn LS_TRAINING .align fun x => { x with fails := 2 }).link 0).fails = 2 ∧
    ((linkIn LS_DOWN .idle id).link 0).stage = .idle ∧ (linkIn LS_FAILED .idle id).linkState 0 = LS_FAILED ∧
    ((linkIn LS_DOWN .idle id).reg (Reg.LNK_CTL 0)).getLsbD 2 = true ∧ ((linkIn LS_DOWN .idle id).reg (Reg.LNK_CTL 0)).getLsbD 0 = true := by
  decide +kernel
theorem witness_align : let s := linkIn LS_TRAINING .align fun x => { x with passed := 12 }
    (s.link 0).stage = .align ∧ laneChoice ((s.link 0).passed &&& (15 : BitVec 4)).toNat
      (min (widthOf (s.rd (Reg.LNK_CTL 0) 5 4)) (widthOf (2 : BitVec 2).toNat)) = some (12, 2) := by decide +kernel

def flowing (f : Link → Link) : State := linkIn LS_UP .idle f
theorem witness_framesFlow : FramesFlow (flowing id) 0 := by unfold FramesFlow; decide +kernel
theorem witness_frameCrc : ((flowing fun x => { x with bad := 6 }).link 0).bad < 7 ∧ ((flowing fun x => { x with bad := 7 }).link 0).bad = 7 := by
  decide +kernel
theorem witness_frame_seq : (0 : BitVec 16) = ((flowing id).link 0).expect ∧ (65535 : BitVec 16) ≠ ((flowing id).link 0).expect := by
  decide +kernel

/-- A running seat with identity 0 and link 0 UP, whose core 0 receives DTAG 5. -/
def receiving : State :=
  let s := (delivering 1).wr Reg.TBL_FORM_STAT 1 0 3
  { s with seat := { s.seat with rx := [] }, engines := s.engines.set 0 Engine.reset }
def frame5 : Frame := ⟨1, false, 0, 5, 0, 0, 9⟩
theorem witness_data : FramesFlow receiving 0 ∧ (0 : BitVec 16) = (receiving.link 0).expect ∧ receiving.linkOpen 0 = true ∧
    receiving.rd Reg.TBL_FORM_STAT 0 0 = 1 ∧ frame5.dest = receiving.seatId ∧ frame5.attempt = receiving.attempt ∧
    receiving.arrival frame5.attempt frame5.dtag ((0 : LinkIx).val / 12) none = .inr 0 := by unfold FramesFlow; decide +kernel

/-- An engine entry whose operand comes over link 0. -/
def input1 : CollDesc := ⟨1, 0, 0, 1, 0, 0, 0, 0, 0⟩
def coll6 : CollEntry := { coll5 with dtag := 6, ins := [input1] }
def collecting : State := { receiving with seat := { receiving.seat with
    deal := some { deal2 with sections := deal2.sections ++ [⟨0, 0xFFFF, .collective [coll6]⟩] } } }
theorem witness_coll : collecting.entriesNow = [coll6] ∧ coll6.engine = (0 : LinkIx).val / 12 ∧ input1 ∈ coll6.ins ∧
    input1.kind = 1 ∧ input1.place = (0 : LinkIx).val ∧ input1.peer = (0 : BitVec 10).toNat ∧ 0 < input1.nblk ∧ (∀ x ∈ coll6.ins, x.kind = 1 → x.place = (0 : LinkIx).val → x = input1) ∧
    coll6.dtag ∉ (collecting.engine coll6.eng).abandoned ∧
    (collecting.engine coll6.eng).operand coll6.dtag input1.operand (input1.first + 0) = none := by decide +kernel

/-- A link that has said HELLO as it stands now, with a frame to re-send, one to send, and nothing. -/
def spoken (f : Link → Link) : State := flowing fun x => f { x with said := some ((flowing id).ownHello 0) }
theorem said_spoken (f : Link → Link) (h : ∀ x, (f x).said = x.said) : ((spoken f).link 0).said = some ((spoken f).ownHello 0) := by
  simp only [spoken, flowing, linkIn]
  show (f _).said = _
  rw [h]
  rfl
theorem witness_frameTime : ((spoken fun x => { x with notices := [(note 1 0, 2)] }).link 0).notices = [(note 1 0, 2)] ∧
    ((spoken fun x => { x with replay := [⟨0, frame5, 7, 0⟩] }).link 0).replay[0]? = some ⟨0, frame5, 7, 0⟩ ∧
    (spoken id).rd (Reg.LNK_CTL 0) 31 16 = 0x40 ∧ ((spoken id).link 0).replay[((spoken id).link 0).cursor]? = none ∧
    ((spoken fun x => { x with out := [({ frame5 with type := 5 }, false)] }).link 0).out = [({ frame5 with type := 5 }, false)] ∧
    ((spoken fun x => { x with out := [(frame5, true)] }).link 0).out = [(frame5, true)] ∧ ((spoken id).link 0).out = [] ∧
    ((spoken fun x => { x with out := [(frame5, true)], replay := List.replicate 256 ⟨0, frame5, 1, 0⟩, cursor := 256 }).link 0).replay.length = 256 ∧
    (((spoken fun x => { x with replay := [⟨0, frame5, 7, 0⟩] }).wr (Reg.LNK_CTL 0) 31 16 0).rd (Reg.LNK_CTL 0) 31 16) = 0 := by
  decide +kernel
theorem witness_frameLayout : FrameFits frame5 ∧ FrameFits { frame5 with type := 5, attempt := 255, dtag := 65535, blk := 16383, dest := 1023 } ∧
    [0, 1, 2, 3].length = 4 ∧ (3 : Nat) + 67 * 4 < 272 := by unfold FrameFits; decide
theorem witness_frameTime_said : ((spoken id).link 0).said = some ((spoken id).ownHello 0) := said_spoken id fun _ => rfl
theorem witness_resend : ((spoken fun x => { x with replay := [⟨0, frame5, 7, 0⟩] }).link 0).replay ≠ [] := by decide +kernel

/-! ### Witnesses: discovery -/

def hello0 : Hello := ⟨0xB0, 0, 1, 1, 1, 0, false, 0, 0, 0, 0, [], 0, []⟩
def confirming : State := linkIn LS_DISCOVERY .discover fun x => { x with hello := some hello0, own := some (0, 0) }
theorem witness_confirm : let s := { confirming with seat := Seat.reset }
    FramesFlow s 0 ∧ (s.link 0).stage = .discover ∧ (s.link 0).hello = some hello0 ∧ (s.link 0).own = some (0, 0) ∧
      s.seat.deal = none ∧ s.seat.loading = none ∧ s.linkState 0 ≠ LS_FENCED := by unfold FramesFlow; decide +kernel
theorem witness_timePeriod : ((flowing id).wr Reg.TBL_FORM_STAT 1 0 3).rd Reg.TBL_FORM_STAT 0 0 = 1 := by decide +kernel
theorem witness_tblForm : State.reset.tblState = TS_EMPTY ∧ playing.tblState ≠ TS_EMPTY := by decide +kernel
theorem witness_timeFrame : let s := ((flowing id).wr Reg.TBL_FORM_STAT 1 0 1).wr Reg.TBL_FORM_STAT 7 2 0
    FramesFlow s 0 ∧ s.linkState 0 ≠ LS_DISCOVERY ∧ s.rd Reg.TBL_FORM_STAT 0 0 = 1 ∧ (s.reg Reg.TBL_FORM).getLsbD 2 = false ∧
      s.rd Reg.TBL_FORM_STAT 7 2 = (0 : LinkIx).val := by unfold FramesFlow; decide +kernel

/-! ### Witnesses: host ports -/

/-- A module whose Turelink uses all lanes. -/
def hosted (s : State) : State := { s with host := { s.host with lanes := 0xFFFF } }
theorem witness_tlUp : (hosted playing).tlUp = true ∧ State.reset.tlUp = false ∧ (hosted playing).added = [] ∧
    ((hosted playing).core 0).vault.noise = [] ∧ (hosted playing).running = true ∧
    (hosted (seatIn TS_EMPTY CS_STOPPED)).host.accesses = [] := by decide +kernel

theorem witness_registerWrite_refused : ¬ControlSize 4 8 ∧ ¬ControlSize 0 2 ∧
    (handWindow (0x0FFFFFF8 : W64).toNat = none ∧ regRow ((0x0FFFFFF8 : W64).toNat / 8 * 8) = none) := by unfold ControlSize; decide +kernel
theorem witness_handWrite : 0x3FFF8 % 8 = 0 ∧ 0x3FFF8 < 0x40000 ∧ (seatIn TS_EMPTY CS_STOPPED).coreState 0 = CS_STOPPED ∧
    IsOn (seatIn TS_EMPTY CS_STOPPED) 0 := by unfold IsOn; decide +kernel
theorem witness_window : WindowAccess 0x3FFFFFC0 64 ∧ playing.physOf ((0x3FFFFFC0 : BitVec 38).toNat / 2 ^ 30) = some 0 ∧
    (seatIn TS_EMPTY CS_STOPPED).running = false ∧ ¬WindowAccess 8 32 ∧ playing.physOf ((0x40000000 : BitVec 38).toNat / 2 ^ 30) = none := by
  unfold WindowAccess; decide +kernel
theorem witness_debugWrite : ((0 : W64).toNat < 0x1000000) ∧ 0x100000000 ≤ (0x100000000 : W64).toNat ∧
    State.reset.tblState ∈ [TS_EMPTY, TS_LOADED, TS_STOPPED] ∧ playing.tblState ∉ [TS_EMPTY, TS_LOADED, TS_STOPPED] := by decide +kernel

/-- A submission engine that is enabled, and a NOP of generation 0, of generation 8, and one that names no command. -/
def submitting : State := hosted (State.reset.wr Reg.HST_SUBQ 5 5 1)
theorem witness_subq : (submitting.reg Reg.HST_SUBQ).getLsbD 5 = true ∧ submitting.tlUp = true ∧ (State.reset.reg Reg.HST_SUBQ).getLsbD 5 = false ∧
    submitting.rd Reg.HST_SUBQ_CONS 31 0 ≠ (1 : BitVec 32).toNat ∧
    submitting.host.held.length + submitting.host.opened.length + 1 ≤ submitting.cplRoom ∧
    ((0 : BitVec 4).toNat + 16 - Tab.get 15 submitting.host.lastGen 0) % 16 = 1 ∧
    ((7 : BitVec 4).toNat + 16 - Tab.get 15 submitting.host.lastGen 0) % 16 = 8 ∧
    ((8 : BitVec 4).toNat + 16 - Tab.get 15 submitting.host.lastGen 0) % 16 = 9 ∧ submitting.host.staleMs ≠ some submitting.ms ∧
    ((0x30 : BitVec 512).extractLsb' 0 8 = (0x30 : Byte)) ∧ (0x30 : BitVec 512) >>> 32 = 0 ∧ (0x30 : BitVec 512).extractLsb' 12 4 = 0 ∧
    (0xFF : Byte) ∉ ([1, 2, 3, 4, 5, 6, 7, 0x10, 0x20, 0x30] : List Byte) := by decide +kernel
/-- The link trains with 16 lanes, with 8 and with none, from down and from 16. -/
theorem witness_tlLink : State.reset.host.lanes ∈ ([0, 0xFF, 0xFF00, 0xFFFF] : List (BitVec 16)) ∧
    submitting.host.lanes ∈ ([0, 0xFF, 0xFF00, 0xFFFF] : List (BitVec 16)) ∧ submitting.host.held = [] ∧ submitting.host.todo = [] ∧
    State.reset.host.lanes = 0 ∧ (State.reset.reg Reg.HST_SUBQ).getLsbD 5 = false ∧
    ((State.reset.wr Reg.HST_SUBQ 5 5 1).reg Reg.HST_SUBQ).getLsbD 5 = true := by
  decide +kernel
theorem witness_cplqFull : ({ submitting with host := { submitting.host with fullSince := some 0 } } : State).host.fullSince ≠ none := by decide

/-- A Crix port that is up, with no deal running. -/
def crixOn (f : Crix → Crix) : State := { (seatIn TS_EMPTY CS_STOPPED).wr Reg.HST_CX_STAT 0 0 1 with crix := f Crix.reset }
def good0 : CrixHead := ⟨true, false, 0, false, 1, 1⟩
theorem crixQuiet_on : CrixQuiet (crixOn id) ∧ CrixStuck (crixOn id) := by unfold CrixQuiet CrixStuck; decide +kernel
theorem witness_crix : (crixOn id).crixUp = true ∧ State.reset.crixUp = false ∧ (crixOn id).crix.out = [] ∧ good0.good = true ∧
    good0.nak = false ∧ good0.rsv = false ∧ (crixOn id).crix.parts[0] = [] ∧ (0 : BitVec 16) = (crixOn id).crix.expect ∧ (1 : BitVec 16) ≠ (crixOn id).crix.expect ∧
    inPayload 2 0 1 = 2 ∧ inPayload 1 0 1 = 1 ∧ inPayload 1 1 1 < 2 ∧ inPayload (1 + 224 * 2 ^ 128) 16 4 % 32 = 0 ∧
    inPayload (1 + 224 * 2 ^ 128) 16 4 ≤ 224 := by decide +kernel
theorem witness_crixResend : let s := crixOn fun x => { x with replay := [(0, ⟨0, true, []⟩, 7)] }
    s.crix.replay ≠ [] ∧ ∀ f ∈ s.crix.replay, f.2.2 < 8 := by decide +kernel

/-- A record that may be performed on a channel, and one that may not. -/
def record (ch : Fin 2) (ok : Bool) : CxRecord :=
  ⟨if ch = 1 then 1 else 2, 0, 1, 0, 0, 2 ^ 30 - 32, 32, 0, ch, ok, if ch = 1 then [(5, true)] else []⟩
theorem witness_crixRecord : ∀ ch : Fin 2, ∀ ok : Bool, let s := crixOn fun x => { x with ready := x.ready.set ch.val [record ch ok] }
    s.crix.ready[ch.val] = record ch ok :: [] ∧ (record ch ok).ch = ch ∧ (record ch ok).ok = ok ∧ s.recordWaits ch = false ∧
      s.physOf (record ch ok).lcore = some 0 ∧ s.running = false ∧ s.host.accesses = [] ∧ s.crix.credits[0] = 0 ∧
      s.crix.out = [] := by decide +kernel
theorem witness_egress : let s := crixOn fun x => { x with egress := [⟨0, 0, some [(5, false)]⟩] }
    s.crixUp = true ∧ s.crix.egress = [⟨0, 0, some [(5, false)]⟩] ∧ s.crix.credits[0] = 0 ∧ s.dealRuns = false := by decide +kernel

/-! ### Witnesses: power and heat -/

theorem witness_rail : (16 : BitVec 5) ≠ 0 ∧ (16 : BitVec 5).getLsbD 4 = true ∧ (1 : BitVec 5).getLsbD 4 = false ∧ playing.running = true := by
  decide +kernel
theorem witness_phase : (playing.reg (Reg.PWR_PHASE 0)).getLsbD 21 = false ∧ failedNow playing 0 ≠ 16 ∧
    failedNow (playing.wr (Reg.PWR_PHASE 0) 15 0 0xFFFF) 0 = 16 ∧
    ((playing.wr (Reg.PWR_PHASE 0) 15 0 0xFFFF).reg (Reg.PWR_PHASE 0)).getLsbD 16 = false := by decide +kernel
/-- A tower whose phase 0 has been good for 100 ms. -/
def goodPhase : State := { State.reset.setReg Reg.TBL_TIME 10000000 with
  power := State.reset.power.set 0 { TowerPower.reset with good := 1 } }
theorem witness_phaseGood : PhaseGood goodPhase 0 0 ∧ ¬PhaseGood goodPhase 0 1 := by unfold PhaseGood; decide +kernel
theorem witness_undervolt : State.reset.dealRuns = false ∧ playing.attempt = 0 ∧ 1 ≤ playing.seat.limit := by decide +kernel
theorem witness_quiet : (stepping TS_STEPPING (plan false) (some ⟨1, 0, 0⟩)).seat.division = some ⟨1, 0, 0⟩ := rfl

def unwarm : State := State.reset.wr Reg.THM_CFG 0 0 0
theorem witness_governor : unwarm.rd Reg.THM_CFG 0 0 = 0 ∧ (∀ w, unwarm.rd (Reg.PWR_PHASE w) 44 40 ≤ 2) ∧ unwarm.tblState ≠ TS_STEPPING := by
  decide +kernel
theorem witness_governor_energy : windowEnergy ({ unwarm.wr (Reg.PWR_WEIGHT 0) 23 0 100 with
    power := unwarm.power.set 0 { TowerPower.reset with counts := TowerPower.reset.counts.set 0 1000 } }) 0 ≠ 0 := by decide +kernel
theorem witness_corePwr : (seatIn TS_EMPTY CS_STOPPED).coreState 1 ∉ [CS_STOPPED, CS_SPARE, CS_RETIRED] ∧
    (State.reset.wr (Reg.CORE_STAT 0) 3 0 CS_SPARE).coreState 0 ∈ [CS_STOPPED, CS_SPARE, CS_RETIRED] ∧
    (State.reset.wr (Reg.CORE_STAT 0) 3 0 CS_SPARE).serves 0 = false ∧
    (∀ v < 3, ((State.reset.wr (Reg.CORE_PWR 0) 8 8 1).wr (Reg.CORE_PWR 0) 1 0 v).rd (Reg.CORE_PWR 0) 8 8 = 1 ∧
      ((State.reset.wr (Reg.CORE_PWR 0) 8 8 1).wr (Reg.CORE_PWR 0) 1 0 v).rd (Reg.CORE_PWR 0) 1 0 = v) ∧
    State.reset.seat.loading = none := by decide +kernel

/-- Samples of 40 C everywhere; the ends of the range of a valid one. -/
def samples40 : List (List (BitVec 16)) := List.replicate 4 (List.replicate 692 640)
theorem witness_samples : samples40.length = 4 ∧ (∀ w, (State.reset.towerHeat w).invalid = [] ∧ State.reset.rd (Reg.THM_LAYER w) 7 0 = 0) ∧
    ValidSample (BitVec.ofInt 16 (-320)) ∧ ValidSample 2400 := by unfold ValidSample; decide +kernel
theorem witness_samples_valid : ∀ x ∈ samples40, x.length = 692 ∧ ∀ v ∈ x, ValidSample v := by
  intro x hx
  rw [samples40, List.mem_replicate] at hx
  obtain ⟨-, rfl⟩ := hx
  refine ⟨List.length_replicate, ?_⟩
  intro v hv
  rw [List.mem_replicate] at hv
  obtain ⟨-, rfl⟩ := hv
  unfold ValidSample; decide
/-- A tower whose last samples are all 40 C. -/
def sampled : State := { State.reset with heat := State.reset.heat.set 0 { TowerHeat.reset with last := List.replicate 692 (some 640) } }
theorem witness_shadow : layerMean sampled 0 2 = some 640 ∧ layerMean sampled 0 0 = some 640 := by decide +kernel
theorem witness_forecast : [((0 : BitVec 16), (0 : BitVec 16), (63 : BitVec 6)), (0, 0, 0), (0, 0, 0), (0, 0, 0)].length = 4 ∧
    State.reset.sec.restarting = false ∧ ({ State.reset with sec := { Sec.reset with restarting := true } } : State).sec.restarting = true := by
  decide
theorem witness_thmForecast : ((State.reset.wr (Reg.THM_FC 0) 0 0 1).reg (Reg.THM_FC 0)).getLsbD 0 = true ∧
    NotRecent (State.reset.wr (Reg.THM_FC 0) 0 0 1) 0 0x4D := by unfold NotRecent; decide +kernel

theorem witness_coolant : (640 : BitVec 16) ≠ 0x8000 ∧ (640 : BitVec 16).toInt ≤ 640 ∧ 640 < (641 : BitVec 16).toInt ∧
    ({ State.reset with boot := { Boot.reset with coolantRaised := true } } : State).boot.coolantRaised = true ∧
    State.reset.boot.coolantRaised = false ∧ NotRecent State.reset 0 0x49 := by unfold NotRecent; decide +kernel
/-- A tower at 45 C under a load of 100 W with a base resistance. -/
def warmed : State := (((State.reset.wr (Reg.THM_TEMP 0) 63 48 720).wr (Reg.PWR_EST 0) 15 0 400).wr (Reg.THM_COOL 0) 31 16 2000).wr (Reg.PWR_BUDGET 0) 47 32 1600
theorem witness_coolantSecond : warmed.rd (Reg.THM_TEMP 0) 63 48 ≠ 0x8000 ∧ (warmed.towerHeat 0).seconds = [] ∧
    0 < warmed.rd (Reg.PWR_EST 0) 15 0 ∧ warmed.rd (Reg.PWR_BUDGET 0) 47 32 ≤ 4 * warmed.rd (Reg.PWR_EST 0) 15 0 ∧
    warmed.rd (Reg.THM_COOL 0) 31 16 ≠ 0 := by decide +kernel
/-- The lid of tower 1 was last fast at tick 0: a second ago, or less. -/
def fastAt (now : Nat) : State := { State.reset.setReg Reg.TBL_TIME (BitVec.ofNat 64 now) with
  heat := State.reset.heat.set 1 { TowerHeat.reset with fast := some 0 } }
theorem witness_stopClear : (∀ u n, ((fastAt 100000000).towerHeat u).fast = some n → n + 100000000 ≤ (fastAt 100000000).now) ∧
    ((fastAt 99999999).towerHeat 1).fast = some 0 ∧ (fastAt 99999999).now < 0 + 100000000 := by
  refine ⟨?_, by decide +kernel⟩
  have h : ∀ u : Tower, ((fastAt 100000000).towerHeat u).fast = none ∨ ((fastAt 100000000).towerHeat u).fast = some 0 := by decide +kernel
  have g : 100000000 ≤ (fastAt 100000000).now := by decide +kernel
  intro u n hn
  rcases h u with e | e <;> rw [e] at hn <;> cases hn
  omega
theorem witness_warmShort : (({ State.reset with power := State.reset.power.set 0 { TowerPower.reset with warmSince := some 0 } } :
    State).towerPower 0).warmSince = some 0 := by decide +kernel
theorem witness_trip : (State.reset.reg Reg.THM_TRIP).getLsbD 63 = false ∧ ((State.reset.wr Reg.THM_TRIP 63 63 1).reg Reg.THM_TRIP).getLsbD 63 = true := by
  decide +kernel

/-! ### Witnesses: bring-up, resets, power-down -/

theorem witness_powerOn : (State.reset.reg Reg.THM_TRIP).getLsbD 63 = false := by decide +kernel
/-- Stage n of bring-up, with PWR_GO high and all rails but the last good. -/
def stageIn (n : Nat) : State := { (State.reset.wr Reg.TBL_BOOT_STAT 3 0 n).wr Reg.PWR_RAIL_STAT 4 0 15 with boot := { Boot.reset with pwrGo := true } }
theorem witness_railGood : (stageIn 1).stage = 1 ∧ (stageIn 1).boot.pwrGo = true ∧ (stageIn 1).rd Reg.PWR_RAIL_STAT 4 0 ||| (16 : BitVec 5).toNat = 31 ∧
    (∀ w, ((stageIn 1).towerPower w).good ||| (List.replicate 4 (BitVec.allOnes 22)).getD w.val 0 = BitVec.allOnes 22) ∧
    (stageIn 2).stage ≠ 1 := by decide +kernel
theorem witness_firmware : (stageIn 2).stage = 2 ∧ ImageOk (stageIn 2) (true, 0) ∧ ¬ImageOk (stageIn 2) (false, 5) ∧
    ¬ImageOk { stageIn 2 with sec := { Sec.reset with counter := 3 } } (true, 2) := by unfold ImageOk; decide +kernel
theorem witness_ledger : (stageIn 3).stage = 3 ∧ (stageIn 3).boot.orderly = true ∧
    (0 : Nat) < ({ stageIn 3 with boot := { Boot.reset with ledger := { factory := [], batches := [[.wear 0 0 true]], queue := [], applied := [] } } } : State).boot.ledger.batches.length ∧
    NoneRetired [] ∧ (∀ r ∈ [LedgerRec.wear 0 5 true], ∀ w c o, r = .wear w c o → c < 2 ^ 32) := by
  refine ⟨by decide +kernel, rfl, by decide, by simp [NoneRetired], ?_⟩
  intro r hr w c o h
  simp only [List.mem_singleton] at hr
  rw [hr] at h
  cases h
  decide
theorem witness_connections : (stageIn 4).stage = 4 ∧ (stageIn 4).boot.resetting = 0 ∧ ((stageIn 4).wr (Reg.VLT_VCH_SPARE 0 1) 63 56 0x1F).repairByte 0 15 % 64 = 0x1F ∧
    ((stageIn 4).wr (Reg.VLT_VCH_SPARE 0 1) 63 56 0x1F).rd (Reg.VLT_VCH_STAT 0) 15 15 = 0 := by decide +kernel
theorem witness_trims : (stageIn 5).stage = 5 ∧ (stageIn 5).boot.resetting = 0 ∧ (List.replicate 4 (List.replicate 10 (63 : BitVec 6))).length = 4 ∧
    ∀ x ∈ List.replicate 4 (List.replicate 10 (63 : BitVec 6)), x.length = 10 := by
  refine ⟨by decide +kernel, rfl, by decide, ?_⟩
  intro x hx
  rw [List.mem_replicate] at hx
  rw [hx.2, List.length_replicate]
theorem witness_waves : (stageIn 6).stage = 6 ∧ (stageIn 6).boot.resetting = 0 ∧ (stageIn 6).boot.waves = (0 : Fin 8).val ∧
    (stageIn 6).retiredCore 0 = false ∧ (stageIn 8).stage = 8 ∧ (stageIn 8).boot.resetting = 0 ∧ (stageIn 9).stage = 9 := by decide +kernel
theorem witness_trimMeasure : (List.replicate 10 (1 : Int)).length = 10 ∧ State.reset.rd (Reg.TBL_LAYER_TRIM_STAT 0) 16 16 = 0 ∧
    (State.reset.wr (Reg.TBL_LAYER_TRIM_STAT 0) 16 16 1).rd (Reg.TBL_LAYER_TRIM_STAT 0) 16 16 = 1 ∧
    (State.reset.wr (Reg.TBL_LAYER_TRIM 0) 5 0 63).rd (Reg.TBL_LAYER_TRIM 0) 5 0 = 63 := by decide +kernel
theorem witness_reset : playing.host.accesses = [] ∧ SeatSound playing ∧
    ({ State.reset with boot := { Boot.reset with resetting := 1 } } : State).boot.resetting ≠ 0 :=
  ⟨rfl, seatSound_of _ rfl (Or.inl rfl), by decide⟩
theorem witness_spareGo : playing.tblState ∉ [TS_EMPTY, TS_LOADED, TS_STOPPED, TS_HELD, TS_STEPPING] ∧
    State.reset.tblState ∈ [TS_EMPTY, TS_LOADED, TS_STOPPED, TS_HELD, TS_STEPPING] ∧ 1 ≤ (5 : Byte).toNat ∧ (5 : Byte).toNat ≤ 5 ∧
    State.reset.boot.sparing = none ∧ State.reset.retiredCore 0 = false ∧ MapSound State.reset := by unfold MapSound; decide +kernel
def sparing (copy : Bool) (n : Nat) : State := { seatIn n CS_STOPPED with boot := { Boot.reset with sparing := some ⟨0, some 1, copy, 2⟩ } }
theorem witness_coreRetired : (sparing false TS_HELD).boot.sparing = some ⟨0, some 1, false, 2⟩ ∧
    (sparing true TS_HELD).boot.sparing = some ⟨0, some 1, true, 2⟩ ∧ (1 : PCore) ≠ 0 ∧ (sparing true TS_HELD).seat.deal = some deal2 := by decide +kernel
theorem witness_powerDown : State.reset.boot.pwrGo = false ∧ SeatSound State.reset ∧ State.reset.host.accesses = [] ∧
    State.reset.boot.thermtripN = true ∧ (State.reset.wr Reg.PWR_RAIL_STAT 4 0 31).rd Reg.PWR_RAIL_STAT 4 0 = 31 ∧
    ({ State.reset with boot := { Boot.reset with thermtripN := false } } : State).boot.thermtripN = false ∧ (stageIn 1).boot.pwrGo = true :=
  ⟨rfl, seatSound_of _ rfl (Or.inl rfl), rfl, rfl, by decide +kernel, rfl, rfl⟩
theorem witness_clockLock : let d : Division := ⟨2, 1, 14⟩
    (stepping TS_STEPPING (plan false) (some d)).seat.division = some d ∧ d.begun.getLsbD (0 : Tower).val = true ∧ d.clock ≤ 2 ∧
      (∀ u : Tower, u ≠ 0 → d.locked.getLsbD u.val = true) ∧
      ∃ u : Tower, u ≠ 0 ∧ (⟨2, 1, 6⟩ : Division).locked.getLsbD u.val = false := by decide +kernel
theorem witness_batch : ({ State.reset with boot := { Boot.reset with ledger := { factory := [], batches := [], queue := [.wear 0 0 true], applied := [] } } } : State).boot.ledger.queue ≠ [] ∧
    State.reset.sec.identity = true ∧ State.reset.sec.restarting = false ∧ State.reset.boot.ledger.queue = [] := by decide

/-! ### Witnesses: firmware, SPDM, the log, performance monitoring -/

def request2 (k : MgmtKind) : MgmtReq := ⟨⟨0x20, 0, 0, 0⟩, k, 64⟩
def asked (k : MgmtKind) (f : Sec → Sec) : State := { State.reset with sec := f { Sec.reset with queue := [request2 k] } }
theorem witness_fw : ∀ k ∈ [MgmtKind.fwStage, .fwActivate, .fwCommit, .telemetry, .spdm], (asked k id).sec.queue = request2 k :: [] ∧
    (asked k id).sec.restarting = false ∧ (request2 k).kind = k := by decide
theorem witness_fw_staged : (asked .fwActivate fun x => { x with staged := some (1, 5) }).sec.staged = some (1, 5) ∧
    (asked .fwActivate id).sec.staged = none ∧ (asked .fwCommit fun x => { x with committable := true }).sec.committable = true ∧
    (asked .fwCommit id).sec.committable = false ∧ ImageOk (asked .fwStage id) (true, 1) ∧ ¬ImageOk (asked .fwStage id) (false, 1) := by
  unfold ImageOk; decide
theorem witness_recovery : (State.reset.wr Reg.SEC_FW_STAT 7 4 3).rd Reg.SEC_FW_STAT 7 4 = 3 ∧ State.reset.rd Reg.SEC_FW_STAT 7 4 ≠ 3 ∧
    (({ State.reset with sec := { Sec.reset with activated := true } } : State).wr Reg.SEC_FW_STAT 7 4 1).sec.activated = true ∧
    (({ State.reset with sec := { Sec.reset with activated := true } } : State).wr Reg.SEC_FW_STAT 7 4 1).rd Reg.SEC_FW_STAT 7 4 = 1 ∧
    State.reset.sec.overloadAt = none := by decide +kernel
theorem witness_spdm : ∀ busy : Bool, (Instr.getVersion true busy, SpdmAnswer.version [(1, 2), (1, 3)]) ∈ spdmTable State.reset true busy 0 0 0 :=
  fun _ => List.Mem.head _

def logged : State := { State.reset with hubQueue := [⟨0, 0, 0, 0, 0, 0, 0x20, 0, 0, 0⟩] }
theorem witness_log : logged.hubQueue = ⟨0, 0, 0, 0, 0, 0, 0x20, 0, 0, 0⟩ :: [] ∧
    unread ((logged.wr Reg.SEC_EVTLOG_PTR 63 32 4095).reg Reg.SEC_EVTLOG_PTR) = 4095 ∧
    (State.reset.rd Reg.SEC_EVTLOG_PTR 63 32 + 2 ^ 32 - (0xFFFFF000 : BitVec 32).toNat) % 2 ^ 32 ≤ 4096 ∧
    4096 < (State.reset.rd Reg.SEC_EVTLOG_PTR 63 32 + 2 ^ 32 - (0xFFFFEFFF : BitVec 32).toNat) % 2 ^ 32 := by decide +kernel
theorem witness_arm : (State.reset.reg Reg.PMU_ARM_TICK).toNat % 5 = 0 ∧ (State.reset.reg Reg.PMU_ARM_CTL).getLsbD 4 = false ∧
    ((State.reset.setReg Reg.PMU_ARM_TICK 4).reg Reg.PMU_ARM_TICK).toNat % 5 ≠ 0 ∧
    (∀ a < 4, ((State.reset.wr Reg.PMU_ARM_CTL 4 4 1).wr Reg.PMU_ARM_CTL 1 0 a).rd Reg.PMU_ARM_CTL 1 0 = a ∧
      (((State.reset.wr Reg.PMU_ARM_CTL 4 4 1).wr Reg.PMU_ARM_CTL 1 0 a).reg Reg.PMU_ARM_CTL).getLsbD 4 = true) := by decide +kernel
theorem core_reset (p : PCore) : State.reset.core p = Core.reset := by simp [State.core, State.reset]
theorem witness_arm_cores (p : PCore) : (State.reset.core p).slotMask = none := by rw [core_reset]; rfl
def sample0 : Sample := ⟨0, 0, 0, 0, 0, 0, 0, 0, 65535, 0⟩
def sampling : State := (playing.setCore 0 { playing.core 0 with sample := some sample0 }).wr (Reg.PMU_SAMPLE_CTL 0) 47 24 10
theorem witness_sample : (sampling.core 0).sample = some sample0 ∧ sample0.xq < 2 ^ 16 ∧
    (9 : BitVec 24).toNat < sampling.rd (Reg.PMU_SAMPLE_CTL 0) 47 24 ∧ sampling.rd (Reg.PMU_SAMPLE_CTL 0) 47 24 ≤ (10 : BitVec 24).toNat ∧
    unread ((sampling.wr (Reg.PMU_SAMPLE_PTR 0) 63 32 255).reg (Reg.PMU_SAMPLE_PTR 0)) < 256 ∧
    256 ≤ unread ((sampling.wr (Reg.PMU_SAMPLE_PTR 0) 63 32 256).reg (Reg.PMU_SAMPLE_PTR 0)) := by decide +kernel

/-! ### Witnesses: clauses that depend on what the present cycle has set, on readings and on the ledger -/

/-- A state in which the present cycle has set a bit of a register. -/
def justSet (s : State) (a i : Nat) : State := { s with guarded := [(a, 1 <<< i)] }
theorem witness_guarded : (State.reset.guardedAt (Reg.THM_STAT 0)).getLsbD 2 = false ∧
    ((justSet State.reset (Reg.THM_STAT 0) 2).guardedAt (Reg.THM_STAT 0)).getLsbD 2 = true ∧
    (State.reset.guardedAt Reg.TBL_RESET).extractLsb' 0 5 = 0 ∧
    ((justSet State.reset Reg.TBL_RESET 4).guardedAt Reg.TBL_RESET).extractLsb' 0 5 ≠ 0 ∧
    (State.reset.guardedAt Reg.PMU_ARM_CTL).getLsbD 4 = false ∧ State.reset.guardedAt Reg.SEC_EVTLOG_PTR = 0 ∧
    (justSet State.reset Reg.SEC_EVTLOG_PTR 0).guardedAt Reg.SEC_EVTLOG_PTR ≠ 0 ∧
    (State.reset.reg Reg.TBL_RESET).getLsbD 4 = false ∧ (playing.reg Reg.TBL_RESET).getLsbD 0 = false := by decide +kernel
/-- The reading of the SRAM as it was enrolled, and one whose block 1 is beyond correction. -/
theorem witness_flipped : (∀ k < 32, flipped [] k ≤ 60) ∧ 60 < flipped [0, BitVec.allOnes 2048] 1 ∧
    ∀ j < 1, flipped [0, BitVec.allOnes 2048] j ≤ 60 := by decide +kernel
/-- A ledger in which every tower's newest count marks an orderly power-off. -/
def marked4 : List LedgerRec := [.wear 0 5 true, .wear 1 6 true, .wear 2 7 true, .wear 3 8 true]
theorem witness_marks : OffMarked marked4 ∧ NoneReplaced marked4 ∧ LargestWear marked4 0 5 ∧ LargestWear [] 0 0 ∧
    ¬OffMarked [.wear 0 5 true, .wear 0 6 false] := by
  refine ⟨?_, by simp [NoneReplaced, marked4], by simp [LargestWear, marked4], by simp [LargestWear], ?_⟩
  · intro w
    match w with
    | 0 => exact ⟨[], [.wear 1 6 true, .wear 2 7 true, .wear 3 8 true], 5, rfl, by simp⟩
    | 1 => exact ⟨[.wear 0 5 true], [.wear 2 7 true, .wear 3 8 true], 6, rfl, by simp⟩
    | 2 => exact ⟨[.wear 0 5 true, .wear 1 6 true], [.wear 3 8 true], 7, rfl, by simp⟩
    | 3 => exact ⟨[.wear 0 5 true, .wear 1 6 true, .wear 2 7 true], [], 8, rfl, by simp⟩
  · intro h
    obtain ⟨a, b, n, e, -⟩ := h 1
    have : LedgerRec.wear 1 n true ∈ [.wear 0 5 true, .wear 0 6 false] := by rw [e]; simp
    simp at this
/-- A trim code in its range, and one on each side of it. -/
theorem witness_trimRange : ((5 : Int) < 0 ∨ 63 < (5 : Int)) = False ∧ (-1 : Int) < 0 ∧ (63 : Int) < 64 := by simp
theorem witness_trip_sample : 1840 ≤ (1840 : BitVec 16).toInt ∧ ValidSample 1840 := by unfold ValidSample; decide
theorem witness_dealNames : (marking 1).serves 0 = true ∧ (marking 1).dealNames ((marking 1).lcoreOf 0) = true ∧
    playing.dealNames (playing.lcoreOf 0) = false ∧ playing.serves 33 = false := by decide +kernel
theorem witness_crix_running : playing.running = true ∧ playing.crix.ready[0] = [] ∧
    ({ playing with crix := { Crix.reset with ready := Crix.reset.ready.set 0 [record 0 true] } } : State).recordWaits 0 = false ∧
    (0 : Nat) + 2 ≤ (playing.wr Reg.TBL_RUN 39 0 2).rubber := by decide +kernel
theorem witness_processor : (({ State.reset with sec := { Sec.reset with activated := true } } : State).wr Reg.SEC_FW_STAT 7 4 1).sec.restarting = false ∧
    logged.sec.restarting = false ∧ unread (logged.reg Reg.SEC_EVTLOG_PTR) < 4096 ∧
    4096 ≤ unread ((logged.wr Reg.SEC_EVTLOG_PTR 63 32 4096).reg Reg.SEC_EVTLOG_PTR) := by decide +kernel

/-! ### Witnesses: the whole machine -/

theorem witness_invariant : State.reset.queueWf ∧ SeatSound State.reset ∧ MapSound State.reset ∧ Tab.wfBy resetOf State.reset.regs = true ∧
    (∀ p : PCore, (State.reset.core p).wf = true) ∧ step State.reset = .next State.reset.tick :=
  ⟨by simp [State.queueWf, State.reset], seatSound_of _ rfl (Or.inl rfl), by unfold MapSound; decide +kernel, rfl,
    fun p => by rw [core_reset]; decide, rfl⟩

/-! ### Results that the spec states -/

/-- The scalar that a command leaves in s3 of core 0, from two in s1 and s2. -/
def s3of (a b : W64) (c : Instr) : W64 :=
  ((after (withRegs fun r => (r.sPut 1 a false).sPut 2 b false) c).core 0).regs.sGet 3

theorem test_add_wraps : s3of (BitVec.allOnes 64) 1 (.add k0 0 3 1 2) = 0 := by decide +kernel
theorem test_mulh_signed : s3of (BitVec.allOnes 64) (BitVec.allOnes 64) (.mulh k0 0 3 1 2) = 0 := by decide +kernel
theorem test_mulhu : s3of (BitVec.allOnes 64) (BitVec.allOnes 64) (.mulhu k0 0 3 1 2) = 0xFFFFFFFFFFFFFFFE := by decide +kernel
theorem test_div_zero : s3of 7 0 (.div k0 0 3 1 2) = BitVec.allOnes 64 := by decide +kernel
theorem test_div_overflow : s3of (BitVec.intMin 64) (BitVec.allOnes 64) (.div k0 0 3 1 2) = BitVec.intMin 64 := by decide +kernel
theorem test_rem_sign : s3of (BitVec.ofInt 64 (-7)) 2 (.rem k0 0 3 1 2) = BitVec.allOnes 64 := by decide +kernel
theorem test_remu_zero : s3of 7 0 (.remu k0 0 3 1 2) = 7 := by decide +kernel
theorem test_shl_mod : s3of 1 65 (.shl k0 0 3 1 2) = 2 := by decide +kernel
theorem test_sra : s3of (BitVec.ofInt 64 (-8)) 1 (.sra k0 0 3 1 2) = BitVec.ofInt 64 (-4) := by decide +kernel
theorem test_cmpLt : s3of (BitVec.allOnes 64) 0 (.cmpLt k0 0 3 1 2) = 1 := by decide +kernel
theorem test_cmpLtu : s3of (BitVec.allOnes 64) 0 (.cmpLtu k0 0 3 1 2) = 0 := by decide +kernel
theorem test_li : s3of 0 0 (.li k0 0 3 (BitVec.allOnes 46)) = BitVec.allOnes 64 := by decide +kernel
theorem test_source_is_destination : s3of 0 0 (.addi k0 0 3 3 5) = 5 := by decide +kernel
theorem test_s0_discards : ((after playing (.addi k0 0 0 0 5)).core 0).regs.sGet 0 = 0 := by decide +kernel
theorem test_poison : ((after (withRegs fun r => r.sPut 1 4 true) (.add k0 0 3 1 2)).core 0).regs.sTag 3 = true := by decide +kernel
theorem test_guard_poisoned : ((after tainted (.addi k0 1 3 0 5)).core 0).regs.sGet 3 = 0 ∧
    ((after tainted (.addi k0 1 3 0 5)).core 0).regs.sTag 3 = true := by decide +kernel
theorem test_pfirst : ((after (withRegs fun r => r.sPut 1 3 false) (.pfirst k0 0 2 1)).core 0).regs.pGet 2 = 7 := by decide +kernel
theorem test_br : ((after playing (.br k0 0 1 1 9)).core 0).next = 9 ∧ ((after playing (.br k0 0 1 1 9)).core 0).owed = 2 := by decide +kernel
theorem test_br_not : ((after playing (.br k0 0 2 1 9)).core 0).next = 1 := by decide +kernel
theorem test_jal_links : ((after playing (.jal k0 0 3 9)).core 0).regs.sGet 3 = 1 := by decide +kernel
theorem test_loop_last : ((after (withRegs fun r => r.sPut 3 1 false) (.loop k0 0 3 9)).core 0).next = 1 := by decide +kernel
theorem test_sts : ((after (withRegs fun r => r.sPut 3 0x0102 false) (.sts k0 0 3 0 8)).core 0).scratch.bytes 8 3 = [2, 1, 0] := by decide +kernel
theorem test_rend : ((after playing (.rend k0)).core 0).ended = true := by decide +kernel
/-- Lane 0 of 8 bits: 127 + 1 wraps to -128 and leaves lane 1. -/
theorem test_vadd_lane : let s := withRegs fun r => (r.vPut 1 127 0).vPut 2 1 0
    lane (((after s (.vaddI k0 { v0 with vd := 3, va := 1, vb := 2 })).core 0).regs.vGet 3) 16 0 = 0x80 := by decide +kernel
/-- FP32: 1 x 2 + 3 = 5. -/
theorem test_vfma : let s := withRegs fun r => ((r.vPut 1 0x3F800000 0).vPut 2 0x40000000 0).vPut 4 0x40400000 0
    lane (((after s (.vfmaF k0 { v0 with vd := 3, va := 1, vb := 2, vc := 4 })).core 0).regs.vGet 3) 32 0 = 0x40A00000 := by decide +kernel
/-- A NaN is not equal to itself. -/
theorem test_vcmp_nan : let s := withRegs fun r => r.vPut 1 0x7FC00000 0
    ((((after s (.vcmpEqF k0 { v0 with vd := 2, va := 1, vb := 1 })).core 0).regs.pGet 2).getLsbD 0 = false) ∧
    (((after s (.vcmpNeF k0 { v0 with vd := 2, va := 1, vb := 1 })).core 0).regs.pGet 2).getLsbD 0 = true := by decide +kernel
/-- Byte 242 is five +1s, byte 0 five -1s, bytes from 243 zeros (R44). -/
theorem test_vtunpk : let s := withRegs fun r => r.vPut 1 (242 + 255 * 2 ^ 8) 0
    let v := ((after s (.vtunpk k0 { vx0 with vd := 2, va := 1 })).core 0).regs.vGet 2
    lane v 8 0 = 1 ∧ lane v 8 4 = 1 ∧ lane v 8 5 = 0 ∧ lane v 8 10 = 0xFF := by decide +kernel
/-- FP32 1.0 is BF16 0x3F80; FP32 448 is the largest E4M3, 0x7E. -/
theorem test_formats : (Num.ofFloat .f32 0x3F800000).round .bf16 .rne = 0x3F80 ∧
    ((Num.decode .f32 0x43E00000).conv .e4m3 .rne 0 false).code = 0x7E := by decide +kernel
/-- A stored word decodes clean, and with one bit flipped it is corrected (R172, R173). -/
theorem test_ecc : decodeWord (encodeWord 5 0) = (.clean, encodeWord 5 0) ∧
    (decodeWord { encodeWord 5 0 with data := 4 }).2 = encodeWord 5 0 := by decide +kernel
theorem test_vstore : (after (withRegs fun r => r.sPut 2 64 false) (.vstore k0 { x0 with sy := 2, cnt := 1 })).vget 0 2 = encodeWord 0 0 := by
  decide +kernel
theorem test_trick : (after playing .trickBoundary).seat.trick = 1 := by decide +kernel
theorem test_start : (after (seatIn TS_LOADED CS_STOPPED) (.start 0 1 240)).seat.startAt.isSome = true := by decide +kernel
theorem test_start_early : (after (seatIn TS_LOADED CS_STOPPED) (.start 0 1 235)).seat.startAt.isSome = false := by decide +kernel
theorem test_nop : ((after State.reset (.nop 0 1)).host.held.map (·.status)) = [0] := by decide +kernel
theorem test_registerWrite : (after (hosted State.reset) (.registerWrite (BitVec.ofNat 64 Reg.TBL_REPLAY_CFG) 8 0x1FF)).reg Reg.TBL_REPLAY_CFG = 0xFF := by
  decide +kernel
theorem test_trip_once : (after (after State.reset (.thermalTrip 1 true 2 5)) (.thermalTrip 2 false 3 6)).reg Reg.THM_TRIP =
    (after State.reset (.thermalTrip 1 true 2 5)).reg Reg.THM_TRIP := by decide +kernel
theorem test_step_takes_front : (match step { State.reset with pending := [.resetNLow, .refclkLoss] } with
    | .next t => t.pending == [.refclkLoss] && !t.boot.resetN && t.boot.refclk | _ => false) = true := by decide +kernel
theorem test_tick : (match step playing with | .next t => t.seat.cycle | _ => 0) = 1 := by decide +kernel

end Sys2Proof.Tests
end

section
/-! SUPPORT. Fields of words, numbers in byte memory, and stored words (08 R170, R171, R191): what is read where a word has
been written, and at every other word. -/

namespace Sys2Proof.Machine

/-! ### Fields of a word -/

theorem fldMask_getLsbD {n : Nat} (hi lo i : Nat) (h : i < n) (hlo : lo ≤ hi) :
    (fldMask n hi lo).getLsbD i = decide (lo ≤ i ∧ i ≤ hi) := by
  unfold fldMask
  rw [BitVec.getLsbD_shiftLeft, BitVec.getLsbD_ofNat, Nat.testBit_two_pow_sub_one]
  by_cases hl : lo ≤ i
  · have e : i - lo < hi + 1 - lo ↔ i ≤ hi := by omega
    simp [h, hl, e, show i - lo < n by omega]
  · simp [hl]

/-- A bit of a word after a write of a field: the number's bit inside the field, the old bit outside it. -/
theorem setFld_getLsbD {n : Nat} (w : BitVec n) (hi lo v i : Nat) (h : i < n) (hlo : lo ≤ hi) :
    (setFld w hi lo v).getLsbD i = if lo ≤ i ∧ i ≤ hi then v.testBit (i - lo) else w.getLsbD i := by
  unfold setFld
  rw [BitVec.getLsbD_or, BitVec.getLsbD_and, BitVec.getLsbD_not, fldMask_getLsbD hi lo i h hlo, BitVec.getLsbD_shiftLeft,
    BitVec.getLsbD_ofNat, Nat.testBit_mod_two_pow]
  by_cases hl : lo ≤ i
  · have e : i - lo < hi + 1 - lo ↔ i ≤ hi := by omega
    by_cases hh : i ≤ hi <;> simp [h, hl, hh, e, show i - lo < n by omega]
  · simp [h, hl, show i < lo by omega]

/-- A write of a field that does not overlap bits [hi:lo] leaves them. -/
theorem fld_setFld_other {n : Nat} (w : BitVec n) {hi lo hi' lo' : Nat} (v : Nat) (h : hi < lo' ∨ hi' < lo) (hn : hi < n)
    (hlo : lo' ≤ hi') : fld (setFld w hi' lo' v) hi lo = fld w hi lo := by
  unfold fld
  congr 1
  apply BitVec.eq_of_getLsbD_eq
  intro i hi
  rw [BitVec.getLsbD_extractLsb', BitVec.getLsbD_extractLsb', setFld_getLsbD _ _ _ _ _ (by omega) hlo, if_neg (by omega)]

/-- A field that has been written reads as the low bits of the number. -/
theorem fld_setFld_same {n : Nat} (w : BitVec n) (hi lo v : Nat) (hn : hi < n) (hlo : lo ≤ hi) :
    fld (setFld w hi lo v) hi lo = v % 2 ^ (hi + 1 - lo) := by
  unfold fld
  rw [← BitVec.toNat_ofNat]
  congr 1
  apply BitVec.eq_of_getLsbD_eq
  intro i hi
  rw [BitVec.getLsbD_extractLsb', setFld_getLsbD _ _ _ _ _ (by omega) hlo, if_pos (by omega), BitVec.getLsbD_ofNat]
  simp [hi]

theorem fld_lt {n : Nat} (w : BitVec n) (hi lo : Nat) : fld w hi lo < 2 ^ (hi + 1 - lo) := BitVec.isLt _

/-! ### Numbers in byte memory -/

theorem Memory.bytes_eq_map (m : Memory) (n : Nat) : ∀ a, m.bytes a n = (List.range n).map fun i => m.byte (a + i) := by
  induction n with
  | zero => intro a; rfl
  | succ n ih =>
    intro a
    rw [Memory.bytes, ih, List.range_succ_eq_map]
    simp [Function.comp_def, Nat.add_assoc, Nat.add_comm 1]

theorem Memory.bytes_store_same (m : Memory) (a : Nat) (bs : List Byte) : (m.store a bs).bytes a bs.length = bs := by
  rw [Memory.bytes_eq_map]
  refine List.ext_getElem (by simp) fun i h h' => ?_
  simp [Memory.byte_store, h']

theorem Memory.bytes_store_apart (m : Memory) {a b n : Nat} (bs : List Byte) (h : b + n ≤ a ∨ a + bs.length ≤ b) :
    (m.store a bs).bytes b n = m.bytes b n := by
  rw [Memory.bytes_eq_map, Memory.bytes_eq_map]
  refine List.map_congr_left fun i hi => ?_
  have := List.mem_range.mp hi
  rw [Memory.byte_store, if_neg (by omega)]

theorem leNat_leBytes (n : Nat) : ∀ x, leNat (leBytes n x) = x % 256 ^ n := by
  induction n with
  | zero => intro x; simp [leBytes, leNat, Nat.mod_one]
  | succ n ih => intro x; simp [leBytes, leNat, ih, Nat.pow_succ', Nat.mod_mul]

theorem Memory.num_storeNum_same (m : Memory) (a n x : Nat) : (m.storeNum a n x).num a n = x % 256 ^ n := by
  have e := Memory.bytes_store_same m a (leBytes n x)
  rw [leBytes_length] at e
  rw [Memory.num, Memory.storeNum, e, leNat_leBytes]

theorem Memory.num_storeNum_apart (m : Memory) {a b k n : Nat} (x : Nat) (h : b + n ≤ a ∨ a + k ≤ b) :
    (m.storeNum a k x).num b n = m.num b n := by
  rw [Memory.num, Memory.storeNum, Memory.bytes_store_apart _ _ (by rwa [leBytes_length]), Memory.num]

/-! ### Stored words -/

theorem Stored.bits_getLsbD (x : Stored) (i : Nat) (h : i < 288) : x.bits.getLsbD i =
    if i < 256 then x.data.getLsbD i else if i < 280 then x.check.getLsbD (i - 256) else x.md.getLsbD (i - 280) := by
  unfold Stored.bits
  simp only [BitVec.getLsbD_or, BitVec.getLsbD_shiftLeft, BitVec.getLsbD_setWidth]
  by_cases h1 : i < 256
  · simp [h, h1, show i < 280 by omega]
  · have hd : x.data.getLsbD i = false := BitVec.getLsbD_of_ge _ _ (by omega)
    by_cases h2 : i < 280
    · simp [h, h1, h2, hd, show i - 256 < 288 by omega]
    · have hc : x.check.getLsbD (i - 256) = false := BitVec.getLsbD_of_ge _ _ (by omega)
      simp [h, h1, h2, hd, hc, show i - 280 < 288 by omega]

@[simp] theorem Stored.ofBits_bits (x : Stored) : Stored.ofBits x.bits = x := by
  obtain ⟨data, check, md⟩ := x
  simp only [Stored.ofBits, Stored.mk.injEq]
  refine ⟨?_, ?_, ?_⟩ <;> apply BitVec.eq_of_getLsbD_eq <;> intro i hi <;>
    rw [BitVec.getLsbD_extractLsb', Stored.bits_getLsbD _ _ (by omega)]
  · simp [hi]
  · simp [hi, show 256 + i < 280 by omega]
  · rw [if_neg (by omega), if_neg (by omega), Nat.add_sub_cancel_left, decide_eq_true hi, Bool.true_and]

@[simp] theorem Stored.bits_ofBits (b : BitVec 288) : (Stored.ofBits b).bits = b := by
  apply BitVec.eq_of_getLsbD_eq
  intro i hi
  rw [Stored.bits_getLsbD _ _ hi]
  show (if i < 256 then (b.extractLsb' 0 256).getLsbD i else if i < 280 then (b.extractLsb' 256 24).getLsbD (i - 256)
    else (b.extractLsb' 280 8).getLsbD (i - 280)) = _
  by_cases h1 : i < 256
  · rw [if_pos h1, BitVec.getLsbD_extractLsb', decide_eq_true h1, Bool.true_and, Nat.zero_add]
  · by_cases h2 : i < 280
    · rw [if_neg h1, if_pos h2, BitVec.getLsbD_extractLsb', Nat.add_sub_cancel' (by omega), decide_eq_true (by omega),
        Bool.true_and]
    · rw [if_neg h1, if_neg h2, BitVec.getLsbD_extractLsb', Nat.add_sub_cancel' (by omega), decide_eq_true (by omega),
        Bool.true_and]

theorem storedAt_putStored_same (m : Memory) (i : Nat) (x : Stored) : storedAt (putStored m i x) i = x := by
  have h36 := Nat.le_trans (Nat.pow_le_pow_right Nat.two_pos (show 288 ≤ 8 * 36 by decide)) (Nat.le_of_eq (Nat.pow_mul 2 8 36))
  have e : x.bits.toNat % 256 ^ 36 = x.bits.toNat := Nat.mod_eq_of_lt (Nat.lt_of_lt_of_le x.bits.isLt h36)
  rw [storedAt, putStored, Memory.num_storeNum_same, e, BitVec.ofNat_toNat, BitVec.setWidth_eq, Stored.ofBits_bits]

theorem storedAt_putStored_other (m : Memory) {i j : Nat} (x : Stored) (h : j ≠ i) :
    storedAt (putStored m i x) j = storedAt m j := by
  rw [storedAt, putStored, Memory.num_storeNum_apart _ _ (by omega), storedAt]

/-! ### Words through the remap table (R191) -/

/-- Two words of the vault in segments that spare segments serve have the same place among the spare words only if they are
one word. -/
theorem spareIndex_inj {w u e f : Nat} (hw : w < 2 ^ 25) (hu : u < 2 ^ 25) (he : e < 8) (hf : f < 8)
    (hs : e = f → segmentOf w = segmentOf u) (h : spareIndex w e = spareIndex u f) : w = u := by
  unfold spareIndex at h
  have ef : e = f := by omega
  have hseg := hs ef
  unfold segmentOf at hseg
  omega

variable {s : State} {p : PCore}

theorem State.spareOf_some {w e : Nat} (h : s.spareOf p w = some e) :
    e < 8 ∧ remapSeg (s.reg (Reg.VLT_REMAP p e)) = segmentOf w := by
  have hm := List.mem_of_find?_eq_some h
  have hp := List.find?_some h
  simp only [Bool.and_eq_true, beq_iff_eq] at hp
  exact ⟨List.mem_range.mp hm, hp.2⟩

theorem State.spareOf_congr {t : State} (h : t.regs = s.regs) (w : Nat) : t.spareOf p w = s.spareOf p w := by
  unfold State.spareOf
  simp only [State.reg_congr h]

theorem State.vget_eq (s : State) (p : PCore) (w : Nat) : s.vget p w = match s.spareOf p w with
    | some e => storedAt (s.core p).vault.spare (spareIndex w e)
    | none => storedAt (s.core p).vault.mem w := rfl

theorem State.spareOf_vput (s : State) (p : PCore) (w u : Nat) (x : Stored) :
    (s.vput p w x).spareOf p u = s.spareOf p u := by
  unfold State.vput
  split <;> exact State.spareOf_congr (State.setVault_regs _ _ _) u

theorem State.vget_vput_same (s : State) (p : PCore) (w : Nat) (x : Stored) : (s.vput p w x).vget p w = x := by
  rw [State.vget_eq, State.spareOf_vput]
  unfold State.vput State.setVault
  cases s.spareOf p w with
  | some e => simpa using storedAt_putStored_same _ _ x
  | none => simpa using storedAt_putStored_same _ _ x

theorem State.vget_vput_other (s : State) (p : PCore) {w u : Nat} (x : Stored) (hw : w < 2 ^ 25) (hu : u < 2 ^ 25)
    (h : u ≠ w) : (s.vput p w x).vget p u = s.vget p u := by
  rw [State.vget_eq, State.vget_eq, State.spareOf_vput]
  unfold State.vput State.setVault
  cases hs : s.spareOf p w with
  | some e =>
    cases hs' : s.spareOf p u with
    | some f =>
      obtain ⟨he, hew⟩ := State.spareOf_some hs
      obtain ⟨hf, hfu⟩ := State.spareOf_some hs'
      have ne : spareIndex u f ≠ spareIndex w e := fun c =>
        h (spareIndex_inj hu hw hf he (fun ef => by rw [← hfu, ← hew, ef]) c)
      simpa using storedAt_putStored_other _ x ne
    | none => simp
  | none =>
    cases s.spareOf p u with
    | some f => simp
    | none => simpa using storedAt_putStored_other _ x h

end Sys2Proof.Machine
end

section
/-! SUPPORT. What the vault controller does besides moving words (08 R173 to R180, R190, R197; 19 R423): it counts, logs,
reports, marks a segment for its copy, places commands and keeps bursts, and with all that no stored word changes. -/

namespace Sys2Proof.Machine

open Sys2Proof.Claims

/-! ### Words, registers and bytes that stay -/

/-- What of a core the frame of a vault access speaks of: its registers, its memories, its stored words. -/
def Core.contents (c : Core) : RegFile × Memory × Tab Bool × Memory × Memory × Memory :=
  (c.regs, c.scratch, c.scratchPoison, c.hand, c.vault.mem, c.vault.spare)

/-- Bookkeeping of the controller of core p: no stored word changes, nothing else of `OnlyWords` does, and nothing is told to
the host. -/
structure Aside (p : PCore) (s t : State) : Prop where
  only : OnlyWords s t p []
  host : t.host = s.host
  sent : t.sent = s.sent

variable {s t u : State} {p : PCore}

theorem onlyWords_append {l m : List Nat} (h : OnlyWords s t p l) (g : OnlyWords t u p m) : OnlyWords s u p (l ++ m) := by
  obtain ⟨hw, hr, hb, ho⟩ := h
  obtain ⟨gw, gr, gb, go⟩ := g
  refine ⟨fun w lt hm => ?_, gr.trans hr, fun a => ?_, fun q hq => (go q hq).trans (ho q hq)⟩
  · rw [List.mem_append, not_or] at hm
    exact (gw w lt hm.2).trans (hw w lt hm.1)
  · obtain ⟨h1, h2, h3⟩ := hb a
    obtain ⟨g1, g2, g3⟩ := gb a
    exact ⟨g1.trans h1, g2.trans h2, g3.trans h3⟩

theorem Aside.trans (h : Aside p s t) (g : Aside p t u) : Aside p s u :=
  ⟨onlyWords_append h.only g.only, g.host.trans h.host, g.sent.trans h.sent⟩

theorem Aside.refl (p : PCore) (s : State) : Aside p s s :=
  ⟨⟨fun _ _ _ => rfl, rfl, fun _ => ⟨rfl, rfl, rfl⟩, fun _ _ => rfl⟩, rfl, rfl⟩

theorem Aside.vget (h : Aside p s t) {w : Nat} (hw : w < 2 ^ 25) : t.vget p w = s.vget p w :=
  h.only.1 w hw List.not_mem_nil

/-- A step that leaves the contents of every core, and the segments that are served by spare ones. -/
theorem onlyWords_of_contents (l : List Nat) (hc : (t.core p).contents = (s.core p).contents) (ho : CoresBut [p] s t)
    (hr : ∀ w, t.spareOf p w = s.spareOf p w) : OnlyWords s t p l := by
  simp only [Core.contents, Prod.mk.injEq] at hc
  obtain ⟨regs, scratch, tags, hand, mem, spare⟩ := hc
  refine ⟨fun w _ _ => ?_, regs, fun a => ?_, ho⟩
  · rw [State.vget_eq, State.vget_eq, hr, mem, spare]
  · simp only [Core.scratchTag, scratch, tags, hand, and_self]

theorem onlyWords_of_eq (p : PCore) (l : List Nat) (hc : t.cores = s.cores) (hr : t.regs = s.regs) : OnlyWords s t p l :=
  onlyWords_of_contents l (by rw [State.core_congr hc]) (fun q _ => State.core_congr hc q) (State.spareOf_congr hr)

/-- The rest of the state differs. -/
theorem aside_of_eq (p : PCore) (hc : t.cores = s.cores) (hr : t.regs = s.regs) (hh : t.host = s.host)
    (hs : t.sent = s.sent) : Aside p s t :=
  ⟨onlyWords_of_eq p [] hc hr, hh, hs⟩

theorem setCore_aside (s : State) (p : PCore) {c : Core} (h : c.contents = (s.core p).contents) :
    Aside p s (s.setCore p c) :=
  ⟨onlyWords_of_contents [] (by rw [State.core_setCore_same, h])
    (fun _ hq => State.core_setCore_other s c (by simpa using hq)) (State.spareOf_congr (State.setCore_regs s p c)), rfl, rfl⟩

theorem setVault_aside (s : State) (p : PCore) {v : Vault} (hm : v.mem = (s.core p).vault.mem)
    (hs : v.spare = (s.core p).vault.spare) : Aside p s (s.setVault p v) :=
  setCore_aside s p (by simp [Core.contents, hm, hs])

/-! ### Registers -/

theorem find?_congr_of_mem {f g : Nat → Bool} {l : List Nat} (h : ∀ x ∈ l, f x = g x) : l.find? f = l.find? g := by
  induction l with
  | nil => rfl
  | cons x xs ih =>
    rw [List.find?_cons, List.find?_cons, h x List.mem_cons_self, ih fun y hy => h y (List.mem_cons_of_mem x hy)]

theorem spareOf_congr_remap (h : ∀ e < 8, t.reg (Reg.VLT_REMAP p e) = s.reg (Reg.VLT_REMAP p e)) (w : Nat) :
    t.spareOf p w = s.spareOf p w := by
  unfold State.spareOf
  exact find?_congr_of_mem fun e he => by rw [h e (List.mem_range.mp he)]

theorem setReg_aside_of_remap (s : State) (p : PCore) (a : Nat) (v : W64)
    (h : ∀ w, (s.setReg a v).spareOf p w = s.spareOf p w) : Aside p s (s.setReg a v) :=
  ⟨onlyWords_of_contents [] rfl (fun _ _ => rfl) h, rfl, rfl⟩

/-- A control address outside the remap entries of a core. -/
def NotRemap (p : PCore) (a : Nat) : Prop := a < vaultBase p + 0x300 ∨ vaultBase p + 0x340 ≤ a

theorem NotRemap.ne {a e : Nat} (h : NotRemap p a) (he : e < 8) : Reg.VLT_REMAP p e ≠ a := by
  unfold NotRemap at h
  unfold Reg.VLT_REMAP
  omega

theorem setReg_aside (s : State) {a : Nat} (v : W64) (h : NotRemap p a) : Aside p s (s.setReg a v) :=
  setReg_aside_of_remap s p a v (spareOf_congr_remap fun _ he => State.reg_setReg_other s v (h.ne he))

theorem wr_aside (s : State) {a : Nat} (hi lo v : Nat) (h : NotRemap p a) : Aside p s (s.wr a hi lo v) :=
  setReg_aside s _ h

theorem count_aside (s : State) {a : Nat} (hi lo n : Nat) (h : NotRemap p a) : Aside p s (s.count a hi lo n) :=
  (wr_aside s hi lo _ h).trans (aside_of_eq p rfl rfl rfl rfl)

/-- An entry that names no segment to be served is given a segment that waits for its copy. -/
theorem setReg_remap_aside (s : State) (p : PCore) {e : Nat} {v : W64} (he : bit (s.reg (Reg.VLT_REMAP p e)) 63 = false)
    (hv : bit v 63 = false) : Aside p s (s.setReg (Reg.VLT_REMAP p e) v) := by
  refine setReg_aside_of_remap s p _ v fun w => ?_
  unfold State.spareOf
  refine find?_congr_of_mem fun f _ => ?_
  by_cases hf : f = e
  · subst hf
    simp [he, hv]
  · have ne : Reg.VLT_REMAP p f ≠ Reg.VLT_REMAP p e := by unfold Reg.VLT_REMAP; omega
    rw [State.reg_setReg_other s v ne]

/-! ### Counting -/

theorem notRemap_coreCounters {a : Nat} (h : a ∈ coreCounters p) : NotRemap p a := by
  unfold NotRemap vaultBase
  simp only [coreCounters, List.mem_append, List.mem_map, List.mem_range, List.mem_cons, List.not_mem_nil, or_false] at h
  obtain ⟨i, _, rfl⟩ | ⟨i, _, rfl⟩ | rfl | rfl := h
  · unfold Reg.PMU_FIXED countBase; omega
  · unfold Reg.PMU_PROG countBase; omega
  · unfold Reg.PMU_OVF countBase; omega
  · unfold Reg.PMU_SAMPLE_STAT countBase; omega

theorem Memory.num_congr {m n : Memory} (h : ∀ a, m.byte a = n.byte a) (a k : Nat) : m.num a k = n.num a k := by
  rw [Memory.num, Memory.num, Memory.bytes_eq_map, Memory.bytes_eq_map]
  simp only [h]

theorem Quiet.aside (h : Quiet s t p) : Aside p s t := by
  obtain ⟨⟨kept, scratch, tags, hand, vault⟩, others, regs, pieces, -⟩ := h
  have spare : (t.core p).kept.vault.spare = (s.core p).kept.vault.spare := by rw [kept]
  have file : (t.core p).kept.regs = (s.core p).kept.regs := by rw [kept]
  have remap := spareOf_congr_remap fun e he =>
    regs (Reg.VLT_REMAP p e) List.not_mem_nil fun hm => (notRemap_coreCounters hm).ne he rfl
  refine ⟨⟨fun w _ _ => ?_, file, fun a => ⟨scratch a, tags a, hand a⟩, others⟩,
    pieces .host (by decide), pieces .sent (by decide)⟩
  rw [State.vget_eq, State.vget_eq, remap]
  cases s.spareOf p w with
  | some e => exact congrArg (storedAt · _) spare
  | none =>
    unfold storedAt
    rw [Memory.num_congr vault]

theorem layerWork_aside (s : State) (p : PCore) (slice words units : Nat) : Aside p s (s.layerWork p slice words units) :=
  aside_of_eq p rfl rfl rfl rfl

theorem channelWord_aside (s : State) (p : PCore) (w : Nat) (wr : Bool) : Aside p s (s.channelWord p w wr) :=
  ((pmu_quiet s p _ _).aside.trans (activity_quiet _ p _ _).aside).trans (layerWork_aside _ p _ _ _)

/-! ### Events of the controller -/

theorem pushRecord_aside (s : State) (p : PCore) (r : Record) : Aside p s (s.pushRecord p r) := by
  have stat : NotRemap p (Reg.CORE_EVT_STAT p) := by unfold NotRemap Reg.CORE_EVT_STAT vaultBase; omega
  unfold State.pushRecord
  dsimp only
  split
  · exact (count_aside s _ _ _ stat).trans (setCore_aside _ p (by rw [State.core_congr (State.count_cores s _ _ _ _)]; rfl))
  · exact (wr_aside s _ _ _ stat).trans (setCore_aside _ p (by rw [State.core_congr (State.wr_cores s _ _ _ _)]; rfl))

/-- An event without a request. -/
theorem vaultEvent_aside (s : State) (p : PCore) (code : Nat) (arg : W64) (bundle : BitVec 13) :
    Aside p s (s.vaultEvent p code arg REQ_NONE bundle) :=
  pushRecord_aside s p _

theorem segmentOf_lt (w : Nat) : segmentOf w < 2 ^ 19 := by unfold segmentOf; omega

theorem hardSegment_aside (s : State) (p : PCore) (w : Nat) (bundle : BitVec 13) :
    Aside p s (s.hardSegment p (segmentOf w) bundle) := by
  have hseg := segmentOf_lt w
  generalize segmentOf w = seg at hseg
  have append : Aside p s (s.append [.rowSpare p seg]) := aside_of_eq p rfl rfl rfl rfl
  unfold State.hardSegment
  dsimp only
  split
  · exact Aside.refl p s
  · split
    · next e he =>
      have free := List.find?_some he
      simp only [Bool.and_eq_true, Bool.not_eq_true'] at free
      refine append.trans (setReg_remap_aside _ p free.1 ?_)
      rw [bit, BitVec.getLsbD_ofNat, Nat.testBit_lt_two_pow (by omega), Bool.and_false]
    · exact append.trans (vaultEvent_aside _ p _ _ _)

theorem notRemap_errCnt (p : PCore) : NotRemap p (Reg.VLT_ERR_CNT p) := by unfold NotRemap Reg.VLT_ERR_CNT; omega

theorem notRemap_logStat (p : PCore) : NotRemap p (Reg.VLT_LOG_STAT p) := by unfold NotRemap Reg.VLT_LOG_STAT; omega

theorem notRemap_ceLog (p : PCore) {i : Nat} (h : i < 16) : NotRemap p (Reg.VLT_CE_LOG p i) := by
  unfold NotRemap Reg.VLT_CE_LOG; omega

theorem countCe_aside (s : State) (p : PCore) (bundle : BitVec 13) : Aside p s (s.countCe p bundle) := by
  have counted := count_aside s 31 16 1 (notRemap_errCnt p)
  unfold State.countCe
  dsimp only
  split
  · refine (counted.trans ?_).trans (vaultEvent_aside _ p _ _ _)
    exact setVault_aside _ p rfl rfl
  · exact counted

theorem correction_aside (s : State) (p : PCore) (w sym : Nat) (scrub : Bool) (bundle : BitVec 13) :
    Aside p s (s.correction p w sym scrub bundle) := by
  refine (countCe_aside s p bundle).trans ?_
  unfold State.correction
  dsimp only
  generalize s.countCe p bundle = s
  split
  · next i hi =>
    have log : NotRemap p (Reg.VLT_CE_LOG p i) :=
      notRemap_ceLog p (List.mem_range.mp (List.mem_of_find?_eq_some hi))
    have scrubbed : Aside p s (if scrub then s.wr (Reg.VLT_CE_LOG p i) 62 62 1 else s) := by
      split
      · exact wr_aside s _ _ _ log
      · exact Aside.refl p s
    refine scrubbed.trans ?_
    generalize (if scrub then s.wr (Reg.VLT_CE_LOG p i) 62 62 1 else s) = s
    split
    · exact (wr_aside _ _ _ _ log).trans (hardSegment_aside _ p w bundle)
    · exact Aside.refl p _
  · have log : NotRemap p (Reg.VLT_CE_LOG p (s.rd (Reg.VLT_LOG_STAT p) 3 0)) := notRemap_ceLog p (fld_lt _ 3 0)
    generalize s.rd (Reg.VLT_LOG_STAT p) 3 0 = i at log
    have full : Aside p s (if bit (s.reg (Reg.VLT_CE_LOG p i)) 63 then s.wr (Reg.VLT_LOG_STAT p) 4 4 1 else s) := by
      split
      · exact wr_aside s _ _ _ (notRemap_logStat p)
      · exact Aside.refl p s
    exact (full.trans (setReg_aside _ _ log)).trans (wr_aside _ _ _ _ (notRemap_logStat p))

theorem badWord_aside (s : State) (p : PCore) (w : Nat) (scrub : Bool) (bundle : BitVec 13) :
    Aside p s (s.badWord p w scrub bundle) :=
  ((count_aside s _ _ _ (notRemap_errCnt p)).trans (vaultEvent_aside _ p _ _ _)).trans (hardSegment_aside _ p w bundle)

/-! ### Reading and writing for the host -/

/-- The decoder's finding is counted, logged and reported. -/
theorem decoded_aside (s : State) (p : PCore) (w : Nat) (x : Stored) (bundle : BitVec 13) :
    Aside p s (s.decoded p w x bundle).1 := by
  unfold State.decoded
  dsimp only
  split
  · exact Aside.refl p s
  · exact correction_aside s p _ _ _ _
  · exact badWord_aside s p _ _ _

/-- What is delivered of a word is its decoded data and its poison (R173, R174). -/
theorem decoded_value (s : State) (p : PCore) (w : Nat) (x : Stored) (bundle : BitVec 13) :
    ((s.decoded p w x bundle).2.word.data, (s.decoded p w x bundle).2.poison) = readBack x := by
  unfold State.decoded readBack ReadWord.poison
  dsimp only
  cases (decodeWord x).1 <;> rfl

theorem hostRead_aside (s : State) (p : PCore) (w : Nat) : Aside p s (s.hostRead p false w).1 :=
  (channelWord_aside s p w false).trans (decoded_aside _ p w _ 0)

theorem hostRead_value (s : State) (p : PCore) {w : Nat} (hw : w < 2 ^ 25) :
    (s.hostRead p false w).2 = readBack (s.vget p w) := by
  rw [← (channelWord_aside s p w false).vget hw]
  exact decoded_value _ p w _ 0

theorem placeBurst_aside (s : State) (p : PCore) (kind : Nat) (ap : Bool) (ws : List Nat) :
    Aside p s (s.placeBurst p kind ap ws) :=
  setVault_aside s p rfl rfl

theorem blocksMoved_aside (s : State) (p : PCore) (n : Nat) : Aside p s (s.blocksMoved p n) :=
  setVault_aside s p rfl rfl

theorem keepBursts_aside (s : State) (p : PCore) (ws : List Nat) (new : List WriteBurst) :
    Aside p s (s.keepBursts p ws new) :=
  setVault_aside s p rfl rfl

theorem closeBanks_aside (s : State) (p : PCore) : Aside p s (s.closeBanks p) := setVault_aside s p rfl rfl

/-- A burst whose transfers do not fail is read with its command and its blocks alone. -/
theorem readBurst_clean (s : State) (p : PCore) (ap : Bool) (ws : List Nat) (ofHand : Bool) (bundle : BitVec 13)
    (h : (s.core p).vault.noise = []) :
    s.readBurst p ap ws ofHand bundle = ((s.placeBurst p 1 ap ws).blocksMoved p (blocksIn ws), false) := by
  have quiet : (((s.placeBurst p 1 ap ws).blocksMoved p (blocksIn ws)).core p).vault.noise = [] := by
    simp [State.placeBurst, State.blocksMoved, State.setVault, h]
  unfold State.readBurst
  dsimp only
  rw [quiet]

@[simp] theorem burstsOf_singleton (w : Nat) : burstsOf [w] = [[w]] := by
  simp [burstsOf, List.eraseDups_cons]

/-- One word read for the host. -/
theorem hostReads_singleton (s : State) (p : PCore) {w : Nat} (hw : w < 2 ^ 25) (h : (s.core p).vault.noise = []) :
    Aside p s (s.hostReads p [w]).1 ∧ (s.hostReads p [w]).2 = [readBack (s.vget p w)] := by
  have burst : Aside p s ((s.placeBurst p 1 true [w]).blocksMoved p (blocksIn [w])) :=
    (placeBurst_aside s p 1 true [w]).trans (blocksMoved_aside _ p _)
  unfold State.hostReads
  simp only [burstsOf_singleton, List.foldl_cons, List.foldl_nil, readBurst_clean s p _ _ _ _ h, List.nil_append]
  exact ⟨burst.trans (hostRead_aside _ p w), by rw [hostRead_value _ p hw, burst.vget hw]⟩

/-- A write of one word, through the remap table, changes that word alone. -/
theorem vput_onlyWords (s : State) (p : PCore) {w : Nat} (x : Stored) (hw : w < 2 ^ 25) :
    OnlyWords s (s.vput p w x) p [w] := by
  refine ⟨fun u hu hm => State.vget_vput_other s p x hw hu (by simpa using hm), ?_⟩
  unfold State.vput State.setVault
  cases s.spareOf p w <;>
    exact ⟨by simp, fun a => by simp [Core.scratchTag], fun q hq => State.core_setCore_other s _ (by simpa using hq)⟩

theorem vput_host (s : State) (p : PCore) (w : Nat) (x : Stored) : (s.vput p w x).host = s.host := by
  unfold State.vput
  split <;> rfl

/-- One word written for the host: its burst's bookkeeping follows the write. -/
theorem hostWrites_singleton (s : State) (p : PCore) (w : Nat) (d : BitVec 256) (poison : Bool) :
    Aside p (s.vput p w (encodeWord d (metaByte 0 false poison))) (s.hostWrites p [(w, d, poison)]) := by
  unfold State.hostWrites State.storing
  simp only [List.map_cons, List.map_nil, burstsOf_singleton, State.each_cons, State.each_nil]
  exact (((channelWord_aside _ p w true).trans (placeBurst_aside _ p _ _ _)).trans (blocksMoved_aside _ p _)).trans
    (keepBursts_aside _ p _ _)

end Sys2Proof.Machine
end

section
/-! PROOF. Checker test mode and host windows (08 R193, 14 R319, 01 R15): the other ways into a vault. -/

namespace Sys2Proof.Machine

open Sys2Proof.Claims

variable {s : State} {p : PCore}

/-! ### Test mode (R193) -/

/-- A write of VLT_TEST_CTL has set WORD and ENABLE. -/
def State.testOn (s : State) (p : PCore) (word : Nat) : State :=
  (s.wr (Reg.VLT_TEST_CTL p) 56 32 word).wr (Reg.VLT_TEST_CTL p) 2 2 1

/-- Every register of the test block lies behind the remap entries. -/
theorem notRemap_of_le {a : Nat} (h : Reg.VLT_TEST_CTL p ≤ a) : NotRemap p a := by
  unfold Reg.VLT_TEST_CTL at h
  unfold NotRemap
  omega

theorem testOn_aside (s : State) (p : PCore) (word : Nat) : Aside p s (s.testOn p word) :=
  (wr_aside s _ _ _ (notRemap_of_le (Nat.le_refl _))).trans (wr_aside _ _ _ _ (notRemap_of_le (Nat.le_refl _)))

theorem testOn_reg (s : State) (p : PCore) (word : Nat) {a : Nat} (h : a ≠ Reg.VLT_TEST_CTL p) :
    (s.testOn p word).reg a = s.reg a := by
  rw [State.testOn, State.reg_wr_other _ _ _ _ h, State.reg_wr_other _ _ _ _ h]

/-- In a core that may be tested, with no start accepted, the write enables test mode and performs its command. -/
theorem testCtl_accepted (word cmd : Nat) (hs : s.coreState p ∈ [CS_STOPPED, CS_FAULTED, CS_SPARE, CS_RETIRED])
    (ha : s.startAccepted = false) : s.testCtl p true word cmd =
      if cmd = 1 then (s.testOn p word).rawStore p word else if cmd = 2 then (s.testOn p word).rawLoad p word
      else s.testOn p word := by
  have state : (s.wr (Reg.VLT_TEST_CTL p) 56 32 word).coreState p = s.coreState p := by
    unfold State.coreState State.rd
    rw [State.reg_wr_other _ _ _ _ (by unfold Reg.CORE_STAT Reg.VLT_TEST_CTL vaultBase; omega)]
  have testable : (s.wr (Reg.VLT_TEST_CTL p) 56 32 word).testable p = true := by
    unfold State.testable
    rw [state]
    simp only [List.mem_cons, List.not_mem_nil, or_false] at hs
    obtain h | h | h | h := hs <;> rw [h] <;> rfl
  have accepted : (s.wr (Reg.VLT_TEST_CTL p) 56 32 word).startAccepted = false := by
    rw [State.startAccepted, State.wr_seat]
    exact ha
  have enabled : bit ((s.testOn p word).reg (Reg.VLT_TEST_CTL p)) 2 = true := by
    rw [State.testOn, State.reg_wr_same, bit, setFld_getLsbD _ 2 2 1 2 (by decide) (Nat.le_refl 2)]
    rfl
  unfold State.testOn at enabled ⊢
  simp only [State.testCtl, testable, accepted, ofBool, enabled, Bool.and_false, Bool.not_true, Bool.false_eq_true, if_true,
    if_false]

/-- The 288 bits of four doublewords and the low word of a fifth (R193). -/
def rawBits (d : Nat → W64) (m : Nat) : BitVec 288 :=
  BitVec.ofNat 288 ((List.range 4).foldr (fun k n => (d k).toNat + 2 ^ 64 * n) 0 + m * 2 ^ 256)

theorem rawBits_toNat (d : Nat → W64) {m : Nat} (hm : m < 2 ^ 32) : (rawBits d m).toNat =
    (d 0).toNat + 2 ^ 64 * (d 1).toNat + 2 ^ 128 * (d 2).toNat + 2 ^ 192 * (d 3).toNat + 2 ^ 256 * m := by
  have h0 := (d 0).isLt
  have h1 := (d 1).isLt
  have h2 := (d 2).isLt
  have h3 := (d 3).isLt
  rw [rawBits, BitVec.toNat_ofNat]
  simp only [List.range_succ, List.range_zero, List.nil_append, List.cons_append, List.foldr_cons, List.foldr_nil]
  omega

theorem rawBits_doubleword (d : Nat → W64) {m : Nat} (hm : m < 2 ^ 32) {j : Nat} (hj : j < 4) :
    (rawBits d m).extractLsb' (64 * j) 64 = d j := by
  have h0 := (d 0).isLt
  have h1 := (d 1).isLt
  have h2 := (d 2).isLt
  have h3 := (d 3).isLt
  apply BitVec.eq_of_toNat_eq
  rw [BitVec.extractLsb'_toNat, rawBits_toNat d hm, Nat.shiftRight_eq_div_pow]
  obtain rfl | rfl | rfl | rfl : j = 0 ∨ j = 1 ∨ j = 2 ∨ j = 3 := by omega
  all_goals omega

theorem rawBits_meta (d : Nat → W64) {m : Nat} (hm : m < 2 ^ 32) : ((rawBits d m).extractLsb' 256 32).toNat = m := by
  have h0 := (d 0).isLt
  have h1 := (d 1).isLt
  have h2 := (d 2).isLt
  have h3 := (d 3).isLt
  rw [BitVec.extractLsb'_toNat, rawBits_toNat d hm, Nat.shiftRight_eq_div_pow]
  omega

theorem testData_ne {j : Nat} (hj : j < 4) :
    Reg.VLT_TEST_DATA p j ≠ Reg.VLT_TEST_CTL p ∧ Reg.VLT_TEST_DATA p j ≠ Reg.VLT_TEST_META p := by
  unfold Reg.VLT_TEST_DATA Reg.VLT_TEST_CTL Reg.VLT_TEST_META
  omega

theorem testMeta_ne : Reg.VLT_TEST_META p ≠ Reg.VLT_TEST_CTL p := by
  unfold Reg.VLT_TEST_META Reg.VLT_TEST_CTL
  omega

/-- A raw write stores the 288 bits of the registers exactly. -/
theorem rawStore_vget (s : State) (p : PCore) (w : Nat) :
    (∀ j < 4, ((s.rawStore p w).vget p w).bits.extractLsb' (64 * j) 64 = s.reg (Reg.VLT_TEST_DATA p j)) ∧
    ((s.rawStore p w).vget p w).bits.extractLsb' 256 32 = (s.reg (Reg.VLT_TEST_META p)).extractLsb' 0 32 := by
  have stored : ((s.rawStore p w).vget p w).bits =
      rawBits (fun k => s.reg (Reg.VLT_TEST_DATA p k)) (s.rd (Reg.VLT_TEST_META p) 31 0) := by
    rw [State.rawStore, State.vget_vput_same, Stored.bits_ofBits, rawBits]
  rw [stored]
  exact ⟨fun j hj => rawBits_doubleword _ (fld_lt _ 31 0) hj, BitVec.eq_of_toNat_eq (rawBits_meta _ (fld_lt _ 31 0))⟩

/-- Registers set from a list of values each hold theirs. -/
theorem each_setReg_reg {f : Nat → Nat} (hf : Function.Injective f) (v : Nat → W64) {k : Nat} {ks : List Nat} (hk : k ∈ ks)
    (s : State) : (s.each ks fun s k => s.setReg (f k) (v k)).reg (f k) = v k := by
  induction ks generalizing s with
  | nil => cases hk
  | cons x xs ih =>
    rw [State.each_cons]
    rcases List.mem_cons.mp hk with rfl | h
    · refine State.each_keeps (fun u => u.reg (f k) = v k) xs _ (fun u y hu => ?_) _ (State.reg_setReg_same _ _ _)
      by_cases hy : y = k
      · rw [hy, State.reg_setReg_same]
      · rw [State.reg_setReg_other _ _ fun e => hy (hf e).symm, hu]
    · exact ih h _

/-- The code of RESULT (R193). -/
def resultCode (d : Decoded) : Nat := match d with | .clean => 0 | .corrected _ => 1 | .uncorrectable => 2

/-- The data registers after a raw read of a stored word. -/
def State.rawData (s : State) (p : PCore) (x : Stored) : State :=
  s.each (List.range 4) fun s k => s.setReg (Reg.VLT_TEST_DATA p k) (x.bits.extractLsb' (64 * k) 64)

/-- A raw read, register by register, for some number as SYMBOL. -/
theorem rawLoad_eq (s : State) (p : PCore) (w : Nat) : ∃ symbol, s.rawLoad p w =
    ((((s.rawData p (s.vget p w)).wr (Reg.VLT_TEST_META p) 31 0 ((s.vget p w).bits.extractLsb' 256 32).toNat).wr
      (Reg.VLT_TEST_CTL p) 15 14 (resultCode (decodeWord (s.vget p w)).1)).wr (Reg.VLT_TEST_CTL p) 13 8 symbol) := by
  unfold State.rawLoad State.rawData
  dsimp only
  cases (decodeWord (s.vget p w)).1 with
  | clean => exact ⟨0, rfl⟩
  | corrected q => exact ⟨symbolName q, rfl⟩
  | uncorrectable => exact ⟨0, rfl⟩

theorem rawData_aside (s : State) (p : PCore) (x : Stored) : Aside p s (s.rawData p x) :=
  State.each_keeps (Aside p s) _ _ (fun u k h => h.trans (setReg_aside u _ (notRemap_of_le (by
    unfold Reg.VLT_TEST_CTL Reg.VLT_TEST_DATA; omega)))) s (Aside.refl p s)

/-- A raw read writes registers of the test block alone. -/
theorem rawLoad_aside (s : State) (p : PCore) (w : Nat) : Aside p s (s.rawLoad p w) := by
  obtain ⟨symbol, e⟩ := rawLoad_eq s p w
  have ctl : NotRemap p (Reg.VLT_TEST_CTL p) := notRemap_of_le (Nat.le_refl _)
  have md : NotRemap p (Reg.VLT_TEST_META p) := notRemap_of_le (by unfold Reg.VLT_TEST_CTL Reg.VLT_TEST_META; omega)
  rw [e]
  exact (((rawData_aside s p _).trans (wr_aside _ _ _ _ md)).trans (wr_aside _ _ _ _ ctl)).trans (wr_aside _ _ _ _ ctl)

/-- A raw read brings the stored bits and the decoder's finding. -/
theorem rawLoad_reg (s : State) (p : PCore) (w : Nat) :
    (∀ j < 4, (s.rawLoad p w).reg (Reg.VLT_TEST_DATA p j) = (s.vget p w).bits.extractLsb' (64 * j) 64) ∧
    ((s.rawLoad p w).reg (Reg.VLT_TEST_META p)).extractLsb' 0 32 = (s.vget p w).bits.extractLsb' 256 32 ∧
    (s.rawLoad p w).rd (Reg.VLT_TEST_CTL p) 15 14 = resultCode (decodeWord (s.vget p w)).1 := by
  obtain ⟨symbol, e⟩ := rawLoad_eq s p w
  rw [e]
  refine ⟨fun j hj => ?_, ?_, ?_⟩
  · obtain ⟨ctl, md⟩ := testData_ne (p := p) hj
    have inj : Function.Injective (Reg.VLT_TEST_DATA p) := fun a b h => by
      unfold Reg.VLT_TEST_DATA at h
      omega
    rw [State.reg_wr_other _ _ _ _ ctl, State.reg_wr_other _ _ _ _ ctl, State.reg_wr_other _ _ _ _ md]
    exact each_setReg_reg inj (fun k => (s.vget p w).bits.extractLsb' (64 * k) 64) (List.mem_range.mpr hj) s
  · rw [State.reg_wr_other _ _ _ _ testMeta_ne, State.reg_wr_other _ _ _ _ testMeta_ne, State.reg_wr_same]
    refine BitVec.eq_of_toNat_eq ((fld_setFld_same _ 31 0 _ (by decide) (by decide)).trans ?_)
    exact Nat.mod_eq_of_lt (BitVec.isLt _)
  · rw [State.rd, State.reg_wr_same, State.reg_wr_same, fld_setFld_other _ _ (.inr (by decide)) (by decide) (by decide),
      fld_setFld_same _ _ _ _ (by decide) (by decide)]
    cases (decodeWord (s.vget p w)).1 <;> rfl

/-- R193, the write. -/
theorem rawWrite_completes (p : PCore) (s : State) (w : BitVec 25)
    (hs : s.coreState p ∈ [CS_STOPPED, CS_FAULTED, CS_SPARE, CS_RETIRED]) (ha : s.startAccepted = false) :
    ∃ t, exec (.rawWrite p true w) s = .next t ∧ OnlyWords s t p [w.toNat] ∧
      (∀ j < 4, (t.vget p w.toNat).bits.extractLsb' (64 * j) 64 = s.reg (Reg.VLT_TEST_DATA p j)) ∧
      (t.vget p w.toNat).bits.extractLsb' 256 32 = (s.reg (Reg.VLT_TEST_META p)).extractLsb' 0 32 := by
  refine ⟨(s.testOn p w.toNat).rawStore p w.toNat, ?_, ?_, ?_⟩
  · show Host.Outcome.next _ = _
    rw [testCtl_accepted w.toNat 1 hs ha, if_pos rfl]
  · exact onlyWords_append (testOn_aside s p w.toNat).only (vput_onlyWords _ p _ w.isLt)
  · obtain ⟨data, md⟩ := rawStore_vget (s.testOn p w.toNat) p w.toNat
    refine ⟨fun j hj => ?_, ?_⟩
    · rw [data j hj, testOn_reg s p _ (testData_ne hj).1]
    · rw [md, testOn_reg s p _ testMeta_ne]

/-- R193, the read. -/
theorem rawRead_completes (p : PCore) (s : State) (w : BitVec 25)
    (hs : s.coreState p ∈ [CS_STOPPED, CS_FAULTED, CS_SPARE, CS_RETIRED]) (ha : s.startAccepted = false) :
    ∃ t, exec (.rawRead p true w) s = .next t ∧ OnlyWords s t p [] ∧
      (∀ j < 4, t.reg (Reg.VLT_TEST_DATA p j) = (s.vget p w.toNat).bits.extractLsb' (64 * j) 64) ∧
      (t.reg (Reg.VLT_TEST_META p)).extractLsb' 0 32 = (s.vget p w.toNat).bits.extractLsb' 256 32 ∧
      t.rd (Reg.VLT_TEST_CTL p) 15 14 = resultCode (decodeWord (s.vget p w.toNat)).1 := by
  have on := testOn_aside s p w.toNat
  refine ⟨(s.testOn p w.toNat).rawLoad p w.toNat, ?_, ?_, ?_⟩
  · show Host.Outcome.next _ = _
    rw [testCtl_accepted w.toNat 2 hs ha, if_neg (by decide), if_pos rfl]
  · exact (on.trans (rawLoad_aside _ p w.toNat)).only
  · rw [← on.vget w.isLt]
    exact rawLoad_reg _ p w.toNat

/-! ### Host windows (R15, R319, R333) -/

/-- The deal marks windows of cores that it serves (R15). -/
theorem physOf_of_marked {kind : Nat} (h : s.marked p kind = true) : s.physOf (s.lcoreOf p) = some p := by
  unfold State.marked at h
  simp only [Bool.and_eq_true, beq_iff_eq] at h
  exact h.1.2

/-- The only access that waits is performed, where it fits and no STAGE is it. -/
theorem serveHost_singleton {lc budget : Nat} {a : Access} {t : State} {n : Nat} (hp : s.physOf lc = some p)
    (ha : s.host.accesses = [(lc, a)]) (hn : a.staged = none)
    (h : ({ s with host := { s.host with accesses := [] } } : State).perform p a budget = (t, none, n)) :
    s.serveHost lc budget = t := by
  unfold State.serveHost
  rw [hp]
  simp only [ha, State.performAll, ne_eq, not_true_eq_false, if_false, hn, Bool.false_eq_true, h, List.nil_append]

/-- The state in which a window of core p finds an access: the banks closed, the access taken out of its queue. -/
def State.opened (s : State) (p : PCore) : State :=
  { s.closeBanks p with host := { (s.closeBanks p).host with accesses := [] } }

theorem opened_onlyWords (s : State) (p : PCore) : OnlyWords s (s.opened p) p [] :=
  onlyWords_append (closeBanks_aside s p).only (onlyWords_of_eq p [] rfl rfl)

theorem opened_noise (h : (s.core p).vault.noise = []) : ((s.opened p).core p).vault.noise = [] := by
  have e : (s.opened p).core p = (s.closeBanks p).core p := State.core_congr rfl p
  rw [e]
  simp [State.closeBanks, State.setVault, h]

theorem execHostWindow_singleton {a : Access} {t : State} {n : Nat} (hm : s.marked p 1 = true)
    (ha : s.host.accesses = [(s.lcoreOf p, a)]) (hn : a.staged = none) (h : (s.opened p).perform p a 256 = (t, none, n)) :
    exec (.hostWindow p) s = .next t := by
  have hp : (s.closeBanks p).physOf (s.lcoreOf p) = some p := physOf_of_marked hm
  show Host.Outcome.next _ = _
  rw [if_pos hm, serveHost_singleton hp ha hn h]

/-- A read of one word. -/
theorem perform_read (s : State) (p : PCore) {off : Nat} (ho : off < 2 ^ 30) (hd : off % 32 = 0)
    (hq : (s.core p).vault.noise = []) : s.perform p (.read off 32) 256 =
      ((s.hostReads p [off / 32]).1.send (.readData off (leBytes 32 (readBack (s.vget p (off / 32))).1.toNat)
        [(readBack (s.vget p (off / 32))).2]), none, 1) := by
  obtain ⟨-, value⟩ := hostReads_singleton s p (w := off / 32) (by omega) hq
  generalize readBack (s.vget p (off / 32)) = x at value ⊢
  have one : run (off / 32) (max 1 (32 / 32)) = [off / 32] := by simp [run]
  have all : (leBytes 32 x.1.toNat).take 32 = leBytes 32 x.1.toNat := List.take_of_length_le (Nat.le_of_eq (leBytes_length _ _))
  simp only [State.perform, Nat.mod_eq_of_lt ho, one, value, hd, all, List.length_singleton, List.flatMap_singleton,
    List.drop_zero, List.map_singleton]
  rfl

/-- A write of one word. -/
theorem perform_write (s : State) (p : PCore) {off : Nat} {d : List Byte} (x : Bool) (ho : off < 2 ^ 30)
    (hd : d.length = 32) : s.perform p (.write off d x) 256 =
      (s.hostWrites p [(off / 32, BitVec.ofNat 256 (leNat d), x)], none, 1) := by
  have all : (d.drop (32 * 0)).take 32 = d := List.take_of_length_le (Nat.le_of_eq hd)
  simp only [State.perform, Nat.mod_eq_of_lt ho, hd, Nat.lt_irrefl, if_false, Nat.div_self, Nat.zero_lt_succ, List.range_one,
    List.map_singleton, all, Nat.add_zero]
  rfl

theorem hostWindow_read (p : PCore) (s : State) (off : Nat) (hm : s.marked p 1 = true) (hq : (s.core p).vault.noise = [])
    (ho : off < 2 ^ 30) (hd : off % 32 = 0) (ha : s.host.accesses = [(s.lcoreOf p, .read off 32)]) :
    ∃ t, exec (.hostWindow p) s = .next t ∧ t.host.accesses = [] ∧ OnlyWords s t p [] ∧
      t.sent = .readData off (leBytes 32 (readBack (s.vget p (off / 32))).1.toNat) [(readBack (s.vget p (off / 32))).2]
        :: s.sent := by
  have hw : off / 32 < 2 ^ 25 := by omega
  have start := opened_onlyWords s p
  have word : (s.opened p).vget p (off / 32) = s.vget p (off / 32) := start.1 _ hw List.not_mem_nil
  obtain ⟨aside, -⟩ := hostReads_singleton (s.opened p) p hw (opened_noise hq)
  refine ⟨_, execHostWindow_singleton hm ha rfl (perform_read _ p ho hd (opened_noise hq)), ?_, ?_, ?_⟩
  · rw [State.send_host, aside.host]
    rfl
  · exact onlyWords_append (onlyWords_append start aside.only) (onlyWords_of_eq p [] rfl rfl)
  · rw [word]
    exact congrArg (_ :: ·) aside.sent

theorem hostWindow_write (p : PCore) (s : State) (off : Nat) (d : List Byte) (x : Bool) (hm : s.marked p 1 = true)
    (ho : off < 2 ^ 30) (hl : d.length = 32) (ha : s.host.accesses = [(s.lcoreOf p, .write off d x)]) :
    ∃ t, exec (.hostWindow p) s = .next t ∧ t.host.accesses = [] ∧ OnlyWords s t p [off / 32] ∧
      t.vget p (off / 32) = encodeWord (BitVec.ofNat 256 (leNat d)) (metaByte 0 false x) := by
  have hw : off / 32 < 2 ^ 25 := by omega
  have aside := hostWrites_singleton (s.opened p) p (off / 32) (BitVec.ofNat 256 (leNat d)) x
  refine ⟨_, execHostWindow_singleton hm ha rfl (perform_write _ p x ho hl), ?_, ?_, ?_⟩
  · rw [aside.host, vput_host]
    rfl
  · exact onlyWords_append (onlyWords_append (opened_onlyWords s p) (vput_onlyWords _ p _ hw)) aside.only
  · rw [aside.vget hw, State.vget_vput_same]

end Sys2Proof.Machine
end

section

namespace Sys2Proof.Machine

open Sys2Proof.Claims

/-- Settles O18: the raw accesses by the registers they read and write, the host's by the window that serves the one access
that waits. -/
theorem testModeAndHostWindow : Obligations.TestModeAndHostWindow := by
  unfold Obligations.TestModeAndHostWindow
  refine ⟨fun p s w hs ha => ⟨?_, ?_⟩, fun p s off hm hq ho hd => ⟨fun h => ?_, fun d x hl h => ?_⟩⟩
  · exact rawWrite_completes p s w hs ha
  · exact rawRead_completes p s w hs ha
  · exact hostWindow_read p s off hm hq ho hd h
  · exact hostWindow_write p s off d x hm ho hl h

end Sys2Proof.Machine
end
